-- ==== Sys2Proof/Word.lean ====
section
/-! DEFINITION. The machine's word types (spec/00_scope.md R6, spec/20_memory.md R62) and the placing of a field in a word. -/

namespace Sys2Proof

/-- A byte, the addressable unit (R6, R60). -/
abbrev Byte := BitVec 8

/-- A halfword of 2 bytes (R62). -/
abbrev Half := BitVec 16

/-- A word of 4 bytes (R62): a general register, an address, an instruction (R6). -/
abbrev Word := BitVec 32

/-- A double word of 8 bytes (R62). -/
abbrev Double := BitVec 64

/-- A 5-bit register number, 0 to 31 (R99). -/
abbrev RegNum := BitVec 5

end Sys2Proof
end

