-- ==== Sys2Proof/Config.lean ====
section
/-! DEFINITION. What is fixed for the machine: the parameters of spec/00_scope.md R7 with the value each has here,
the memory map of spec/20_memory.md R73, the launch values of spec/10_state.md R45, and the free values (draws, R10).
The parameters that vary from launch to launch (`MEM_MAP`, `END_PC`, `IRQ`) stand in State (notes/assumptions/3.md). -/

namespace Sys2Proof

/-- `BRANCH_DELAY` (R7, R26): one delay slot, or an immediate transfer. -/
inductive BranchDelay where
  | delayed
  | immediate
  deriving DecidableEq, Repr

/-- `MAP_ONLY` (R7, R230): refuse the map-only instructions, or give them the meaning of general knowledge. -/
inductive MapOnly where
  | refuse
  | generalKnowledge
  deriving DecidableEq, Repr

/-- `TRAP_MODEL` (R7, R320, R323): an exception ends the run, or goes to a handler in memory, which the spec does not
specify. -/
inductive TrapModel where
  | terminal
  | vectored
  deriving DecidableEq, Repr

/-- `FP_ARITH` (R7, R188): IEEE 754 rounded to nearest even, or every arithmetic result a draw (the value `opaque`). -/
inductive FpArith where
  | ieeeRne
  | opaqueResults
  deriving DecidableEq, Repr

/-- `DIV_ZERO` (R7, R178): `hi` and `lo` after a division by zero; the spec gives this one value. -/
inductive DivZero where
  | draws
  deriving DecidableEq, Repr

/-- The segments of the MEMORY ALLOCATION figure (R72); `data` holds Static Data, Dynamic Data and Stack,
`upper` the addresses the figure says nothing about (R73). -/
inductive Segment where
  | reserved
  | text
  | data
  | upper
  deriving DecidableEq, Repr

/-- The three kinds of access that `MEM_MAP` allows or not (R73). -/
inductive Access where
  | read
  | write
  | fetch
  deriving DecidableEq, Repr

/-- One row of `MEM_MAP` (R73): the addresses `first` to `last` and what they allow. -/
structure Region where
  segment    : Segment
  first      : Nat
  last       : Nat
  readable   : Bool
  writable   : Bool
  executable : Bool
  deriving DecidableEq, Repr

/-- Whether a region allows a kind of access. -/
def Region.allows (r : Region) : Access → Bool
  | .read  => r.readable
  | .write => r.writable
  | .fetch => r.executable

namespace Config

/-- `BRANCH_DELAY = delayed` (R7, D1). -/
def branchDelay : BranchDelay := .delayed

/-- `MAP_ONLY = general-knowledge` (R230 (b)). DESIGN CHOICE, unsafe: the spec's decided value is `refuse`; every
claim about a map-only instruction rests on facts no source document states (notes/assumptions/7.md). -/
def mapOnly : MapOnly := .generalKnowledge

/-- `TRAP_MODEL = terminal` (R7, D2). -/
def trapModel : TrapModel := .terminal

/-- `STRICT_FIELDS = true` (R7, R105, D5): an unused instruction field must be zero. -/
def strictFields : Bool := true

/-- `FP_ARITH = ieee_rne` (R7, R188, D10). -/
def fpArith : FpArith := .ieeeRne

/-- `DIV_ZERO = draws` (R7, R178, D12). -/
def divZero : DivZero := .draws

/-- `SC_MAY_FAIL = true` (R7, R159, D8). -/
def scMayFail : Bool := true

/-- `CR_STATUS_NUM = 12` (R34, D19). -/
def crStatusNum : RegNum := 12

/-- `CR_CAUSE_NUM = 13` (R34, D19). -/
def crCauseNum : RegNum := 13

/-- `LAUNCH_PC` (R45). -/
def launchPc : Word := 0x00400000

/-- `LAUNCH_SP`, the launch value of `x[29]` (R45). -/
def launchSp : Word := 0x7FFFFFFC

/-- `LAUNCH_GP`, the launch value of `x[28]` (R45). -/
def launchGp : Word := 0x10008000

/-- `LAUNCH_STATUS` (R45): IM = 0, UM = 1, EL = 0, IE = 0. -/
def launchStatus : Word := 0x00000010

/-- `LAUNCH_CAUSE` (R45). -/
def launchCause : Word := 0x00000000

/-- First address of Text (R72, R73). -/
def textFirst : Nat := 0x00400000

/-- Last address of Text (R73). -/
def textLast : Nat := 0x0FFFFFFF

/-- First address of Static Data (R72, R73). -/
def dataFirst : Nat := 0x10000000

/-- Last address of the data range, the top of Stack (R73). -/
def dataLast : Nat := 0x7FFFFFFF

/-- The decided `MEM_MAP` (R73), row by row. -/
def memMap : List Region :=
  [ ⟨.reserved, 0x00000000, 0x003FFFFF, false, false, false⟩,
    ⟨.text,     textFirst,  textLast,   true,  false, true⟩,
    ⟨.data,     dataFirst,  dataLast,   true,  true,  false⟩,
    ⟨.upper,    0x80000000, 0xFFFFFFFF, false, false, false⟩ ]

/-- What a byte of memory that nothing has written reads as. DESIGN CHOICE, unsafe: the spec gives an arbitrary
value fixed at launch (R45, D29); see notes/assumptions/2.md. -/
def unlistedByte : Byte := 0x00

/-- `draw(32)` (R10): a 32-bit value under no law, one for each draw of the run. Free value: notes/assumptions/6.md. -/
opaque freeWord : Nat → BitVec 32

/-- `draw(64)`, for the sign and fraction of a double-precision NaN result (R188 (d)). Free value: notes/assumptions/6.md. -/
opaque freeDouble : Nat → BitVec 64

/-- An interrupt input of which nothing is assumed (R313): the eight lines at each step. Free value:
notes/assumptions/5.md. -/
opaque freeIrq : Nat → BitVec 8

/-- `draw(1)`, whether a store conditional fails spuriously (R159). Free value: notes/assumptions/6.md. -/
opaque freeBit : Nat → Bool

end Config

end Sys2Proof
end

