-- ==== Sys2Proof/Syntax.lean ====
section
/-! DEFINITION. The instructions: one constructor for each of the 144 rows of spec/opcode_table.json, with the operand
fields of its row in the order of the encoding (spec/30_encoding.md R90 to R94, R101 to R104). `break` is `brk`, because
`break` is a word of Lean; `add.s` is `addS`, `c.eq.d` is `cEqD`, and so on. -/

namespace Sys2Proof

/-- The instruction set (R2 (a), (b), (d)). A register field is a 5-bit number, an immediate is the raw 16 bits. -/
inductive Instr where
  /-- `add` (R120), format R. -/
  | add (rs rt rd : RegNum)
  /-- `addi` (R121), format I. -/
  | addi (rs rt : RegNum) (imm : Half)
  /-- `addiu` (R122), format I. -/
  | addiu (rs rt : RegNum) (imm : Half)
  /-- `addu` (R123), format R. -/
  | addu (rs rt rd : RegNum)
  /-- `and` (R124), format R. -/
  | and (rs rt rd : RegNum)
  /-- `andi` (R125), format I. -/
  | andi (rs rt : RegNum) (imm : Half)
  /-- `beq` (R142), format I. -/
  | beq (rs rt : RegNum) (imm : Half)
  /-- `bne` (R143), format I. -/
  | bne (rs rt : RegNum) (imm : Half)
  /-- `j` (R144), format J. -/
  | j (addr : BitVec 26)
  /-- `jal` (R145), format J. -/
  | jal (addr : BitVec 26)
  /-- `jr` (R146), format R. -/
  | jr (rs : RegNum)
  /-- `lbu` (R152), format I. -/
  | lbu (rs rt : RegNum) (imm : Half)
  /-- `lhu` (R153), format I. -/
  | lhu (rs rt : RegNum) (imm : Half)
  /-- `ll` (R155), format I. -/
  | ll (rs rt : RegNum) (imm : Half)
  /-- `lui` (R126), format I. -/
  | lui (rt : RegNum) (imm : Half)
  /-- `lw` (R154), format I. -/
  | lw (rs rt : RegNum) (imm : Half)
  /-- `nor` (R127), format R. -/
  | nor (rs rt rd : RegNum)
  /-- `or` (R128), format R. -/
  | or (rs rt rd : RegNum)
  /-- `ori` (R129), format I. -/
  | ori (rs rt : RegNum) (imm : Half)
  /-- `slt` (R130), format R. -/
  | slt (rs rt rd : RegNum)
  /-- `slti` (R131), format I. -/
  | slti (rs rt : RegNum) (imm : Half)
  /-- `sltiu` (R132), format I. -/
  | sltiu (rs rt : RegNum) (imm : Half)
  /-- `sltu` (R133), format R. -/
  | sltu (rs rt rd : RegNum)
  /-- `sll` (R134), format R. -/
  | sll (rt rd : RegNum) (shamt : BitVec 5)
  /-- `srl` (R135), format R. -/
  | srl (rt rd : RegNum) (shamt : BitVec 5)
  /-- `sb` (R156), format I. -/
  | sb (rs rt : RegNum) (imm : Half)
  /-- `sc` (R159), format I. -/
  | sc (rs rt : RegNum) (imm : Half)
  /-- `sh` (R157), format I. -/
  | sh (rs rt : RegNum) (imm : Half)
  /-- `sw` (R158), format I. -/
  | sw (rs rt : RegNum) (imm : Half)
  /-- `sub` (R136), format R. -/
  | sub (rs rt rd : RegNum)
  /-- `subu` (R137), format R. -/
  | subu (rs rt rd : RegNum)
  /-- `bc1t` (R204), format FI. -/
  | bc1t (imm : Half)
  /-- `bc1f` (R205), format FI. -/
  | bc1f (imm : Half)
  /-- `div` (R170), format R. -/
  | div (rs rt : RegNum)
  /-- `divu` (R171), format R. -/
  | divu (rs rt : RegNum)
  /-- `add.s` (R189), format FR. -/
  | addS (ft fs fd : RegNum)
  /-- `add.d` (R190), format FR. -/
  | addD (ft fs fd : RegNum)
  /-- `sub.s` (R191), format FR. -/
  | subS (ft fs fd : RegNum)
  /-- `sub.d` (R192), format FR. -/
  | subD (ft fs fd : RegNum)
  /-- `mul.s` (R193), format FR. -/
  | mulS (ft fs fd : RegNum)
  /-- `mul.d` (R194), format FR. -/
  | mulD (ft fs fd : RegNum)
  /-- `div.s` (R195), format FR. -/
  | divS (ft fs fd : RegNum)
  /-- `div.d` (R196), format FR. -/
  | divD (ft fs fd : RegNum)
  /-- `c.eq.s` (R197), format FR. -/
  | cEqS (ft fs : RegNum)
  /-- `c.eq.d` (R200), format FR. -/
  | cEqD (ft fs : RegNum)
  /-- `c.lt.s` (R198), format FR. -/
  | cLtS (ft fs : RegNum)
  /-- `c.lt.d` (R201), format FR. -/
  | cLtD (ft fs : RegNum)
  /-- `c.le.s` (R199), format FR. -/
  | cLeS (ft fs : RegNum)
  /-- `c.le.d` (R202), format FR. -/
  | cLeD (ft fs : RegNum)
  /-- `lwc1` (R210), format I. -/
  | lwc1 (rs rt : RegNum) (imm : Half)
  /-- `ldc1` (R211), format I. -/
  | ldc1 (rs rt : RegNum) (imm : Half)
  /-- `mfhi` (R174), format R. -/
  | mfhi (rd : RegNum)
  /-- `mflo` (R175), format R. -/
  | mflo (rd : RegNum)
  /-- `mfc0` (R176), format R. -/
  | mfc0 (rt rd : RegNum)
  /-- `mult` (R172), format R. -/
  | mult (rs rt : RegNum)
  /-- `multu` (R173), format R. -/
  | multu (rs rt : RegNum)
  /-- `sra` (R177), format R. -/
  | sra (rt rd : RegNum) (shamt : BitVec 5)
  /-- `swc1` (R212), format I. -/
  | swc1 (rs rt : RegNum) (imm : Half)
  /-- `sdc1` (R213), format I. -/
  | sdc1 (rs rt : RegNum) (imm : Half)
  /-- `blez` (R231), format I. -/
  | blez (rs : RegNum) (imm : Half)
  /-- `bgtz` (R232), format I. -/
  | bgtz (rs : RegNum) (imm : Half)
  /-- `xori` (R233), format I. -/
  | xori (rs rt : RegNum) (imm : Half)
  /-- `lb` (R234), format I. -/
  | lb (rs rt : RegNum) (imm : Half)
  /-- `lh` (R235), format I. -/
  | lh (rs rt : RegNum) (imm : Half)
  /-- `lwl` (R238), format I. -/
  | lwl (rs rt : RegNum) (imm : Half)
  /-- `lwr` (R239), format I. -/
  | lwr (rs rt : RegNum) (imm : Half)
  /-- `swl` (R240), format I. -/
  | swl (rs rt : RegNum) (imm : Half)
  /-- `swr` (R241), format I. -/
  | swr (rs rt : RegNum) (imm : Half)
  /-- `cache` (R242), format I; `rt` is the operation code. -/
  | cache (rs rt : RegNum) (imm : Half)
  /-- `lwc2` (R243), format I. -/
  | lwc2 (rs rt : RegNum) (imm : Half)
  /-- `ldc2` (R244), format I. -/
  | ldc2 (rs rt : RegNum) (imm : Half)
  /-- `pref` (R245), format I; `rt` is the hint. -/
  | pref (rs rt : RegNum) (imm : Half)
  /-- `swc2` (R246), format I. -/
  | swc2 (rs rt : RegNum) (imm : Half)
  /-- `sdc2` (R247), format I. -/
  | sdc2 (rs rt : RegNum) (imm : Half)
  /-- `sllv` (R248), format R. -/
  | sllv (rs rt rd : RegNum)
  /-- `srlv` (R249), format R. -/
  | srlv (rs rt rd : RegNum)
  /-- `srav` (R250), format R. -/
  | srav (rs rt rd : RegNum)
  /-- `jalr` (R251), format R. -/
  | jalr (rs rd : RegNum)
  /-- `movz` (R252), format R. -/
  | movz (rs rt rd : RegNum)
  /-- `movn` (R253), format R. -/
  | movn (rs rt rd : RegNum)
  /-- `syscall` (R254), format R. -/
  | syscall (code : BitVec 20)
  /-- `break` (R255), format R. -/
  | brk (code : BitVec 20)
  /-- `sync` (R256), format R. -/
  | sync
  /-- `mthi` (R257), format R. -/
  | mthi (rs : RegNum)
  /-- `mtlo` (R258), format R. -/
  | mtlo (rs : RegNum)
  /-- `xor` (R259), format R. -/
  | xor (rs rt rd : RegNum)
  /-- `tge` (R260), format R. -/
  | tge (rs rt : RegNum) (code : BitVec 10)
  /-- `tgeu` (R261), format R. -/
  | tgeu (rs rt : RegNum) (code : BitVec 10)
  /-- `tlt` (R262), format R. -/
  | tlt (rs rt : RegNum) (code : BitVec 10)
  /-- `tltu` (R263), format R. -/
  | tltu (rs rt : RegNum) (code : BitVec 10)
  /-- `teq` (R264), format R. -/
  | teq (rs rt : RegNum) (code : BitVec 10)
  /-- `tne` (R265), format R. -/
  | tne (rs rt : RegNum) (code : BitVec 10)
  /-- `sqrt.s` (R271), format FR. -/
  | sqrtS (fs fd : RegNum)
  /-- `sqrt.d` (R271), format FR. -/
  | sqrtD (fs fd : RegNum)
  /-- `abs.s` (R272), format FR. -/
  | absS (fs fd : RegNum)
  /-- `abs.d` (R272), format FR. -/
  | absD (fs fd : RegNum)
  /-- `mov.s` (R273), format FR. -/
  | movS (fs fd : RegNum)
  /-- `mov.d` (R273), format FR. -/
  | movD (fs fd : RegNum)
  /-- `neg.s` (R274), format FR. -/
  | negS (fs fd : RegNum)
  /-- `neg.d` (R274), format FR. -/
  | negD (fs fd : RegNum)
  /-- `round.w.s` (R275), format FR. -/
  | roundWS (fs fd : RegNum)
  /-- `round.w.d` (R275), format FR. -/
  | roundWD (fs fd : RegNum)
  /-- `trunc.w.s` (R276), format FR. -/
  | truncWS (fs fd : RegNum)
  /-- `trunc.w.d` (R276), format FR. -/
  | truncWD (fs fd : RegNum)
  /-- `ceil.w.s` (R277), format FR. -/
  | ceilWS (fs fd : RegNum)
  /-- `ceil.w.d` (R277), format FR. -/
  | ceilWD (fs fd : RegNum)
  /-- `floor.w.s` (R278), format FR. -/
  | floorWS (fs fd : RegNum)
  /-- `floor.w.d` (R278), format FR. -/
  | floorWD (fs fd : RegNum)
  /-- `cvt.s.s` (R281), format FR. -/
  | cvtSS (fs fd : RegNum)
  /-- `cvt.s.d` (R281), format FR. -/
  | cvtSD (fs fd : RegNum)
  /-- `cvt.d.s` (R282), format FR. -/
  | cvtDS (fs fd : RegNum)
  /-- `cvt.d.d` (R282), format FR. -/
  | cvtDD (fs fd : RegNum)
  /-- `cvt.w.s` (R283), format FR. -/
  | cvtWS (fs fd : RegNum)
  /-- `cvt.w.d` (R283), format FR. -/
  | cvtWD (fs fd : RegNum)
  /-- `movz.s` (R279), format FR; bits 20:16 name the general register `rt`. -/
  | movzS (rt fs fd : RegNum)
  /-- `movz.d` (R279), format FR; bits 20:16 name the general register `rt`. -/
  | movzD (rt fs fd : RegNum)
  /-- `movn.s` (R280), format FR; bits 20:16 name the general register `rt`. -/
  | movnS (rt fs fd : RegNum)
  /-- `movn.d` (R280), format FR; bits 20:16 name the general register `rt`. -/
  | movnD (rt fs fd : RegNum)
  /-- `c.f.s` (R284), format FR. -/
  | cFS (ft fs : RegNum)
  /-- `c.f.d` (R284), format FR. -/
  | cFD (ft fs : RegNum)
  /-- `c.un.s` (R285), format FR. -/
  | cUnS (ft fs : RegNum)
  /-- `c.un.d` (R285), format FR. -/
  | cUnD (ft fs : RegNum)
  /-- `c.ueq.s` (R286), format FR. -/
  | cUeqS (ft fs : RegNum)
  /-- `c.ueq.d` (R286), format FR. -/
  | cUeqD (ft fs : RegNum)
  /-- `c.olt.s` (R287), format FR. -/
  | cOltS (ft fs : RegNum)
  /-- `c.olt.d` (R287), format FR. -/
  | cOltD (ft fs : RegNum)
  /-- `c.ult.s` (R288), format FR. -/
  | cUltS (ft fs : RegNum)
  /-- `c.ult.d` (R288), format FR. -/
  | cUltD (ft fs : RegNum)
  /-- `c.ole.s` (R289), format FR. -/
  | cOleS (ft fs : RegNum)
  /-- `c.ole.d` (R289), format FR. -/
  | cOleD (ft fs : RegNum)
  /-- `c.ule.s` (R290), format FR. -/
  | cUleS (ft fs : RegNum)
  /-- `c.ule.d` (R290), format FR. -/
  | cUleD (ft fs : RegNum)
  /-- `c.sf.s` (R291), format FR. -/
  | cSfS (ft fs : RegNum)
  /-- `c.sf.d` (R291), format FR. -/
  | cSfD (ft fs : RegNum)
  /-- `c.ngle.s` (R292), format FR. -/
  | cNgleS (ft fs : RegNum)
  /-- `c.ngle.d` (R292), format FR. -/
  | cNgleD (ft fs : RegNum)
  /-- `c.seq.s` (R293), format FR. -/
  | cSeqS (ft fs : RegNum)
  /-- `c.seq.d` (R293), format FR. -/
  | cSeqD (ft fs : RegNum)
  /-- `c.ngl.s` (R294), format FR. -/
  | cNglS (ft fs : RegNum)
  /-- `c.ngl.d` (R294), format FR. -/
  | cNglD (ft fs : RegNum)
  /-- `c.nge.s` (R295), format FR. -/
  | cNgeS (ft fs : RegNum)
  /-- `c.nge.d` (R295), format FR. -/
  | cNgeD (ft fs : RegNum)
  /-- `c.ngt.s` (R296), format FR. -/
  | cNgtS (ft fs : RegNum)
  /-- `c.ngt.d` (R296), format FR. -/
  | cNgtD (ft fs : RegNum)
  deriving DecidableEq, Repr

end Sys2Proof
end

