-- ==== Sys2Proof/Decode.lean ====
section
/-! DEFINITION. Decoding and encoding (spec/30_encoding.md R90 to R106). `decode` follows the decision procedure of R100 with the
opcode-map columns of R101 to R104 and the unused fields of R105 (`STRICT_FIELDS = true`); `encode` writes the word of an
instruction from the same tables. -/

namespace Sys2Proof

/-- Why a word is reserved (R106), each of which raises RI, or why no word could be read at all. -/
inductive DecodeError where
  /-- A blank cell of the opcode column (R101). -/
  | blankOpcode
  /-- A blank cell of column (1) (R102). -/
  | blankFunct
  /-- A blank cell of column (2) (R103). -/
  | blankFpFunct
  /-- Opcode 11hex with an `fmt` other than 8, 10hex, 11hex (R106). -/
  | reservedFmt
  /-- `fmt` 8 with an `ft` other than 0 or 1 (R106). -/
  | reservedFt
  /-- Opcode 10hex with bits 25:21 or funct not 0 (R104, R106). -/
  | reservedCop0
  /-- A field the instruction does not use is not zero (R105). -/
  | unusedField
  /-- Fewer or more than the four bytes of an instruction (R90 to R94: one width only). -/
  | notOneWord
  deriving DecidableEq, Repr

/-! ## Fields (R90 to R94) -/

/-- `opcode`, bits 31:26. -/
def opField (w : Word) : BitVec 6 := w.extractLsb' 26 6
/-- `rs`, bits 25:21. -/
def rsField (w : Word) : RegNum := w.extractLsb' 21 5
/-- `rt`, bits 20:16. -/
def rtField (w : Word) : RegNum := w.extractLsb' 16 5
/-- `rd`, bits 15:11. -/
def rdField (w : Word) : RegNum := w.extractLsb' 11 5
/-- `shamt`, bits 10:6. -/
def shamtField (w : Word) : BitVec 5 := w.extractLsb' 6 5
/-- `funct`, bits 5:0. -/
def functField (w : Word) : BitVec 6 := w.extractLsb' 0 6
/-- `immediate`, bits 15:0. -/
def immField (w : Word) : Half := w.extractLsb' 0 16
/-- `address`, bits 25:0. -/
def addrField (w : Word) : BitVec 26 := w.extractLsb' 0 26
/-- The 20-bit code field of `syscall` and `break`, bits 25:6 (R254, R255). -/
def codeField (w : Word) : BitVec 20 := w.extractLsb' 6 20
/-- The 10-bit code field of the conditional traps, bits 15:6 (R266). -/
def trapCodeField (w : Word) : BitVec 10 := w.extractLsb' 6 10
/-- `fmt` stands where format R has `rs` (R93). -/
abbrev fmtField (w : Word) : BitVec 5 := rsField w
/-- `ft` stands where format R has `rt` (R93). -/
abbrev ftField (w : Word) : RegNum := rtField w
/-- `fs` stands where format R has `rd` (R93). -/
abbrev fsField (w : Word) : RegNum := rdField w
/-- `fd` stands where format R has `shamt` (R93). -/
abbrev fdField (w : Word) : RegNum := shamtField w

/-! ## Decoding (R100) -/

/-- R105: under `STRICT_FIELDS` a word whose unused fields are not all zero is reserved; without it they are ignored. -/
def strict (unusedZero : Bool) (i : Instr) : Except DecodeError Instr :=
  if unusedZero || !Config.strictFields then .ok i else .error .unusedField

/-- Column (1): opcode 0, selected by `funct` (R102). -/
def decodeSpecial (w : Word) : Except DecodeError Instr :=
  match functField w with
  | 0x00#6 => strict (rsField w == 0) (.sll (rtField w) (rdField w) (shamtField w))
  | 0x02#6 => strict (rsField w == 0) (.srl (rtField w) (rdField w) (shamtField w))
  | 0x03#6 => strict (rsField w == 0) (.sra (rtField w) (rdField w) (shamtField w))
  | 0x04#6 => strict (shamtField w == 0) (.sllv (rsField w) (rtField w) (rdField w))
  | 0x06#6 => strict (shamtField w == 0) (.srlv (rsField w) (rtField w) (rdField w))
  | 0x07#6 => strict (shamtField w == 0) (.srav (rsField w) (rtField w) (rdField w))
  | 0x08#6 => strict (rtField w == 0 && rdField w == 0 && shamtField w == 0) (.jr (rsField w))
  | 0x09#6 => strict (rtField w == 0 && shamtField w == 0) (.jalr (rsField w) (rdField w))
  | 0x0A#6 => strict (shamtField w == 0) (.movz (rsField w) (rtField w) (rdField w))
  | 0x0B#6 => strict (shamtField w == 0) (.movn (rsField w) (rtField w) (rdField w))
  | 0x0C#6 => .ok (.syscall (codeField w))
  | 0x0D#6 => .ok (.brk (codeField w))
  | 0x0F#6 => strict (rsField w == 0 && rtField w == 0 && rdField w == 0 && shamtField w == 0) .sync
  | 0x10#6 => strict (rsField w == 0 && rtField w == 0 && shamtField w == 0) (.mfhi (rdField w))
  | 0x11#6 => strict (rtField w == 0 && rdField w == 0 && shamtField w == 0) (.mthi (rsField w))
  | 0x12#6 => strict (rsField w == 0 && rtField w == 0 && shamtField w == 0) (.mflo (rdField w))
  | 0x13#6 => strict (rtField w == 0 && rdField w == 0 && shamtField w == 0) (.mtlo (rsField w))
  | 0x18#6 => strict (rdField w == 0 && shamtField w == 0) (.mult (rsField w) (rtField w))
  | 0x19#6 => strict (rdField w == 0 && shamtField w == 0) (.multu (rsField w) (rtField w))
  | 0x1A#6 => strict (rdField w == 0 && shamtField w == 0) (.div (rsField w) (rtField w))
  | 0x1B#6 => strict (rdField w == 0 && shamtField w == 0) (.divu (rsField w) (rtField w))
  | 0x20#6 => strict (shamtField w == 0) (.add (rsField w) (rtField w) (rdField w))
  | 0x21#6 => strict (shamtField w == 0) (.addu (rsField w) (rtField w) (rdField w))
  | 0x22#6 => strict (shamtField w == 0) (.sub (rsField w) (rtField w) (rdField w))
  | 0x23#6 => strict (shamtField w == 0) (.subu (rsField w) (rtField w) (rdField w))
  | 0x24#6 => strict (shamtField w == 0) (.and (rsField w) (rtField w) (rdField w))
  | 0x25#6 => strict (shamtField w == 0) (.or (rsField w) (rtField w) (rdField w))
  | 0x26#6 => strict (shamtField w == 0) (.xor (rsField w) (rtField w) (rdField w))
  | 0x27#6 => strict (shamtField w == 0) (.nor (rsField w) (rtField w) (rdField w))
  | 0x2A#6 => strict (shamtField w == 0) (.slt (rsField w) (rtField w) (rdField w))
  | 0x2B#6 => strict (shamtField w == 0) (.sltu (rsField w) (rtField w) (rdField w))
  | 0x30#6 => .ok (.tge (rsField w) (rtField w) (trapCodeField w))
  | 0x31#6 => .ok (.tgeu (rsField w) (rtField w) (trapCodeField w))
  | 0x32#6 => .ok (.tlt (rsField w) (rtField w) (trapCodeField w))
  | 0x33#6 => .ok (.tltu (rsField w) (rtField w) (trapCodeField w))
  | 0x34#6 => .ok (.teq (rsField w) (rtField w) (trapCodeField w))
  | 0x36#6 => .ok (.tne (rsField w) (rtField w) (trapCodeField w))
  | _ => .error .blankFunct

/-- Column (2) with `fmt` 10hex: single precision (R103). -/
def decodeSingle (w : Word) : Except DecodeError Instr :=
  match functField w with
  | 0x00#6 => .ok (.addS (ftField w) (fsField w) (fdField w))
  | 0x01#6 => .ok (.subS (ftField w) (fsField w) (fdField w))
  | 0x02#6 => .ok (.mulS (ftField w) (fsField w) (fdField w))
  | 0x03#6 => .ok (.divS (ftField w) (fsField w) (fdField w))
  | 0x04#6 => strict (ftField w == 0) (.sqrtS (fsField w) (fdField w))
  | 0x05#6 => strict (ftField w == 0) (.absS (fsField w) (fdField w))
  | 0x06#6 => strict (ftField w == 0) (.movS (fsField w) (fdField w))
  | 0x07#6 => strict (ftField w == 0) (.negS (fsField w) (fdField w))
  | 0x0C#6 => strict (ftField w == 0) (.roundWS (fsField w) (fdField w))
  | 0x0D#6 => strict (ftField w == 0) (.truncWS (fsField w) (fdField w))
  | 0x0E#6 => strict (ftField w == 0) (.ceilWS (fsField w) (fdField w))
  | 0x0F#6 => strict (ftField w == 0) (.floorWS (fsField w) (fdField w))
  | 0x12#6 => .ok (.movzS (ftField w) (fsField w) (fdField w))
  | 0x13#6 => .ok (.movnS (ftField w) (fsField w) (fdField w))
  | 0x20#6 => strict (ftField w == 0) (.cvtSS (fsField w) (fdField w))
  | 0x21#6 => strict (ftField w == 0) (.cvtDS (fsField w) (fdField w))
  | 0x24#6 => strict (ftField w == 0) (.cvtWS (fsField w) (fdField w))
  | 0x30#6 => strict (fdField w == 0) (.cFS (ftField w) (fsField w))
  | 0x31#6 => strict (fdField w == 0) (.cUnS (ftField w) (fsField w))
  | 0x32#6 => strict (fdField w == 0) (.cEqS (ftField w) (fsField w))
  | 0x33#6 => strict (fdField w == 0) (.cUeqS (ftField w) (fsField w))
  | 0x34#6 => strict (fdField w == 0) (.cOltS (ftField w) (fsField w))
  | 0x35#6 => strict (fdField w == 0) (.cUltS (ftField w) (fsField w))
  | 0x36#6 => strict (fdField w == 0) (.cOleS (ftField w) (fsField w))
  | 0x37#6 => strict (fdField w == 0) (.cUleS (ftField w) (fsField w))
  | 0x38#6 => strict (fdField w == 0) (.cSfS (ftField w) (fsField w))
  | 0x39#6 => strict (fdField w == 0) (.cNgleS (ftField w) (fsField w))
  | 0x3A#6 => strict (fdField w == 0) (.cSeqS (ftField w) (fsField w))
  | 0x3B#6 => strict (fdField w == 0) (.cNglS (ftField w) (fsField w))
  | 0x3C#6 => strict (fdField w == 0) (.cLtS (ftField w) (fsField w))
  | 0x3D#6 => strict (fdField w == 0) (.cNgeS (ftField w) (fsField w))
  | 0x3E#6 => strict (fdField w == 0) (.cLeS (ftField w) (fsField w))
  | 0x3F#6 => strict (fdField w == 0) (.cNgtS (ftField w) (fsField w))
  | _ => .error .blankFpFunct

/-- Column (2) with `fmt` 11hex: double precision (R103). -/
def decodeDouble (w : Word) : Except DecodeError Instr :=
  match functField w with
  | 0x00#6 => .ok (.addD (ftField w) (fsField w) (fdField w))
  | 0x01#6 => .ok (.subD (ftField w) (fsField w) (fdField w))
  | 0x02#6 => .ok (.mulD (ftField w) (fsField w) (fdField w))
  | 0x03#6 => .ok (.divD (ftField w) (fsField w) (fdField w))
  | 0x04#6 => strict (ftField w == 0) (.sqrtD (fsField w) (fdField w))
  | 0x05#6 => strict (ftField w == 0) (.absD (fsField w) (fdField w))
  | 0x06#6 => strict (ftField w == 0) (.movD (fsField w) (fdField w))
  | 0x07#6 => strict (ftField w == 0) (.negD (fsField w) (fdField w))
  | 0x0C#6 => strict (ftField w == 0) (.roundWD (fsField w) (fdField w))
  | 0x0D#6 => strict (ftField w == 0) (.truncWD (fsField w) (fdField w))
  | 0x0E#6 => strict (ftField w == 0) (.ceilWD (fsField w) (fdField w))
  | 0x0F#6 => strict (ftField w == 0) (.floorWD (fsField w) (fdField w))
  | 0x12#6 => .ok (.movzD (ftField w) (fsField w) (fdField w))
  | 0x13#6 => .ok (.movnD (ftField w) (fsField w) (fdField w))
  | 0x20#6 => strict (ftField w == 0) (.cvtSD (fsField w) (fdField w))
  | 0x21#6 => strict (ftField w == 0) (.cvtDD (fsField w) (fdField w))
  | 0x24#6 => strict (ftField w == 0) (.cvtWD (fsField w) (fdField w))
  | 0x30#6 => strict (fdField w == 0) (.cFD (ftField w) (fsField w))
  | 0x31#6 => strict (fdField w == 0) (.cUnD (ftField w) (fsField w))
  | 0x32#6 => strict (fdField w == 0) (.cEqD (ftField w) (fsField w))
  | 0x33#6 => strict (fdField w == 0) (.cUeqD (ftField w) (fsField w))
  | 0x34#6 => strict (fdField w == 0) (.cOltD (ftField w) (fsField w))
  | 0x35#6 => strict (fdField w == 0) (.cUltD (ftField w) (fsField w))
  | 0x36#6 => strict (fdField w == 0) (.cOleD (ftField w) (fsField w))
  | 0x37#6 => strict (fdField w == 0) (.cUleD (ftField w) (fsField w))
  | 0x38#6 => strict (fdField w == 0) (.cSfD (ftField w) (fsField w))
  | 0x39#6 => strict (fdField w == 0) (.cNgleD (ftField w) (fsField w))
  | 0x3A#6 => strict (fdField w == 0) (.cSeqD (ftField w) (fsField w))
  | 0x3B#6 => strict (fdField w == 0) (.cNglD (ftField w) (fsField w))
  | 0x3C#6 => strict (fdField w == 0) (.cLtD (ftField w) (fsField w))
  | 0x3D#6 => strict (fdField w == 0) (.cNgeD (ftField w) (fsField w))
  | 0x3E#6 => strict (fdField w == 0) (.cLeD (ftField w) (fsField w))
  | 0x3F#6 => strict (fdField w == 0) (.cNgtD (ftField w) (fsField w))
  | _ => .error .blankFpFunct

/-- `fmt` 8 under opcode 11hex: the branches on the floating-point condition (R104). -/
def decodeFpBranch (w : Word) : Except DecodeError Instr :=
  if ftField w = 1 then .ok (.bc1t (immField w))
  else if ftField w = 0 then .ok (.bc1f (immField w))
  else .error .reservedFt

/-- Opcode 11hex, selected by `fmt` (R100, R103, R104). -/
def decodeCop1 (w : Word) : Except DecodeError Instr :=
  if fmtField w = 0x10 then decodeSingle w
  else if fmtField w = 0x11 then decodeDouble w
  else if fmtField w = 0x08 then decodeFpBranch w
  else .error .reservedFmt

/-- Opcode 10hex: `mfc0` or reserved (R100, R104). -/
def decodeCop0 (w : Word) : Except DecodeError Instr :=
  if rsField w = 0 ∧ functField w = 0 then strict (shamtField w == 0) (.mfc0 (rtField w) (rdField w))
  else .error .reservedCop0

/-- The opcode column but for opcodes 0, 10hex and 11hex (R101). -/
def decodePrimary (w : Word) : Except DecodeError Instr :=
  match opField w with
  | 0x02#6 => .ok (.j (addrField w))
  | 0x03#6 => .ok (.jal (addrField w))
  | 0x04#6 => .ok (.beq (rsField w) (rtField w) (immField w))
  | 0x05#6 => .ok (.bne (rsField w) (rtField w) (immField w))
  | 0x06#6 => strict (rtField w == 0) (.blez (rsField w) (immField w))
  | 0x07#6 => strict (rtField w == 0) (.bgtz (rsField w) (immField w))
  | 0x08#6 => .ok (.addi (rsField w) (rtField w) (immField w))
  | 0x09#6 => .ok (.addiu (rsField w) (rtField w) (immField w))
  | 0x0A#6 => .ok (.slti (rsField w) (rtField w) (immField w))
  | 0x0B#6 => .ok (.sltiu (rsField w) (rtField w) (immField w))
  | 0x0C#6 => .ok (.andi (rsField w) (rtField w) (immField w))
  | 0x0D#6 => .ok (.ori (rsField w) (rtField w) (immField w))
  | 0x0E#6 => .ok (.xori (rsField w) (rtField w) (immField w))
  | 0x0F#6 => strict (rsField w == 0) (.lui (rtField w) (immField w))
  | 0x20#6 => .ok (.lb (rsField w) (rtField w) (immField w))
  | 0x21#6 => .ok (.lh (rsField w) (rtField w) (immField w))
  | 0x22#6 => .ok (.lwl (rsField w) (rtField w) (immField w))
  | 0x23#6 => .ok (.lw (rsField w) (rtField w) (immField w))
  | 0x24#6 => .ok (.lbu (rsField w) (rtField w) (immField w))
  | 0x25#6 => .ok (.lhu (rsField w) (rtField w) (immField w))
  | 0x26#6 => .ok (.lwr (rsField w) (rtField w) (immField w))
  | 0x28#6 => .ok (.sb (rsField w) (rtField w) (immField w))
  | 0x29#6 => .ok (.sh (rsField w) (rtField w) (immField w))
  | 0x2A#6 => .ok (.swl (rsField w) (rtField w) (immField w))
  | 0x2B#6 => .ok (.sw (rsField w) (rtField w) (immField w))
  | 0x2E#6 => .ok (.swr (rsField w) (rtField w) (immField w))
  | 0x2F#6 => .ok (.cache (rsField w) (rtField w) (immField w))
  | 0x30#6 => .ok (.ll (rsField w) (rtField w) (immField w))
  | 0x31#6 => .ok (.lwc1 (rsField w) (rtField w) (immField w))
  | 0x32#6 => .ok (.lwc2 (rsField w) (rtField w) (immField w))
  | 0x33#6 => .ok (.pref (rsField w) (rtField w) (immField w))
  | 0x35#6 => .ok (.ldc1 (rsField w) (rtField w) (immField w))
  | 0x36#6 => .ok (.ldc2 (rsField w) (rtField w) (immField w))
  | 0x38#6 => .ok (.sc (rsField w) (rtField w) (immField w))
  | 0x39#6 => .ok (.swc1 (rsField w) (rtField w) (immField w))
  | 0x3A#6 => .ok (.swc2 (rsField w) (rtField w) (immField w))
  | 0x3D#6 => .ok (.sdc1 (rsField w) (rtField w) (immField w))
  | 0x3E#6 => .ok (.sdc2 (rsField w) (rtField w) (immField w))
  | _ => .error .blankOpcode

/-- `decode(w)` (R100): the instruction of a word, or why the word is reserved. -/
def decode (w : Word) : Except DecodeError Instr :=
  if opField w = 0x00 then decodeSpecial w
  else if opField w = 0x11 then decodeCop1 w
  else if opField w = 0x10 then decodeCop0 w
  else decodePrimary w

/-! ## Encoding -/

/-- A field at its place in a word: `v` with its bit 0 at bit `lo`. -/
def place {n : Nat} (v : BitVec n) (lo : Nat) : Word := v.setWidth 32 <<< lo

/-- Format R (R90), and format FR (R93) with `fmt ft fs fd` in the places of `rs rt rd shamt`. -/
def rWord (op : BitVec 6) (rs rt rd : RegNum) (shamt : BitVec 5) (funct : BitVec 6) : Word :=
  place op 26 ||| place rs 21 ||| place rt 16 ||| place rd 11 ||| place shamt 6 ||| place funct 0

/-- Format I (R91), and format FI (R94) with `fmt ft` in the places of `rs rt`. -/
def iWord (op : BitVec 6) (rs rt : RegNum) (imm : Half) : Word :=
  place op 26 ||| place rs 21 ||| place rt 16 ||| place imm 0

/-- Format J (R92). -/
def jWord (op : BitVec 6) (addr : BitVec 26) : Word :=
  place op 26 ||| place addr 0

/-- `syscall` and `break`: a 20-bit code field in bits 25:6 (R254, R255). -/
def codeWord (code : BitVec 20) (funct : BitVec 6) : Word :=
  place code 6 ||| place funct 0

/-- The conditional traps: a 10-bit code field in bits 15:6 (R266). -/
def trapWord (rs rt : RegNum) (code : BitVec 10) (funct : BitVec 6) : Word :=
  place rs 21 ||| place rt 16 ||| place code 6 ||| place funct 0

/-- The word of an instruction, from the encoding tables R101 to R104, its unused fields zero (R105). -/
def encode (i : Instr) : Word :=
  match i with
  | .add rs rt rd => rWord 0x00 rs rt rd 0 0x20
  | .addi rs rt imm => iWord 0x08 rs rt imm
  | .addiu rs rt imm => iWord 0x09 rs rt imm
  | .addu rs rt rd => rWord 0x00 rs rt rd 0 0x21
  | .and rs rt rd => rWord 0x00 rs rt rd 0 0x24
  | .andi rs rt imm => iWord 0x0C rs rt imm
  | .beq rs rt imm => iWord 0x04 rs rt imm
  | .bne rs rt imm => iWord 0x05 rs rt imm
  | .j addr => jWord 0x02 addr
  | .jal addr => jWord 0x03 addr
  | .jr rs => rWord 0x00 rs 0 0 0 0x08
  | .lbu rs rt imm => iWord 0x24 rs rt imm
  | .lhu rs rt imm => iWord 0x25 rs rt imm
  | .ll rs rt imm => iWord 0x30 rs rt imm
  | .lui rt imm => iWord 0x0F 0 rt imm
  | .lw rs rt imm => iWord 0x23 rs rt imm
  | .nor rs rt rd => rWord 0x00 rs rt rd 0 0x27
  | .or rs rt rd => rWord 0x00 rs rt rd 0 0x25
  | .ori rs rt imm => iWord 0x0D rs rt imm
  | .slt rs rt rd => rWord 0x00 rs rt rd 0 0x2A
  | .slti rs rt imm => iWord 0x0A rs rt imm
  | .sltiu rs rt imm => iWord 0x0B rs rt imm
  | .sltu rs rt rd => rWord 0x00 rs rt rd 0 0x2B
  | .sll rt rd shamt => rWord 0x00 0 rt rd shamt 0x00
  | .srl rt rd shamt => rWord 0x00 0 rt rd shamt 0x02
  | .sb rs rt imm => iWord 0x28 rs rt imm
  | .sc rs rt imm => iWord 0x38 rs rt imm
  | .sh rs rt imm => iWord 0x29 rs rt imm
  | .sw rs rt imm => iWord 0x2B rs rt imm
  | .sub rs rt rd => rWord 0x00 rs rt rd 0 0x22
  | .subu rs rt rd => rWord 0x00 rs rt rd 0 0x23
  | .bc1t imm => iWord 0x11 0x08 1 imm
  | .bc1f imm => iWord 0x11 0x08 0 imm
  | .div rs rt => rWord 0x00 rs rt 0 0 0x1A
  | .divu rs rt => rWord 0x00 rs rt 0 0 0x1B
  | .addS ft fs fd => rWord 0x11 0x10 ft fs fd 0x00
  | .addD ft fs fd => rWord 0x11 0x11 ft fs fd 0x00
  | .subS ft fs fd => rWord 0x11 0x10 ft fs fd 0x01
  | .subD ft fs fd => rWord 0x11 0x11 ft fs fd 0x01
  | .mulS ft fs fd => rWord 0x11 0x10 ft fs fd 0x02
  | .mulD ft fs fd => rWord 0x11 0x11 ft fs fd 0x02
  | .divS ft fs fd => rWord 0x11 0x10 ft fs fd 0x03
  | .divD ft fs fd => rWord 0x11 0x11 ft fs fd 0x03
  | .cEqS ft fs => rWord 0x11 0x10 ft fs 0 0x32
  | .cEqD ft fs => rWord 0x11 0x11 ft fs 0 0x32
  | .cLtS ft fs => rWord 0x11 0x10 ft fs 0 0x3C
  | .cLtD ft fs => rWord 0x11 0x11 ft fs 0 0x3C
  | .cLeS ft fs => rWord 0x11 0x10 ft fs 0 0x3E
  | .cLeD ft fs => rWord 0x11 0x11 ft fs 0 0x3E
  | .lwc1 rs rt imm => iWord 0x31 rs rt imm
  | .ldc1 rs rt imm => iWord 0x35 rs rt imm
  | .mfhi rd => rWord 0x00 0 0 rd 0 0x10
  | .mflo rd => rWord 0x00 0 0 rd 0 0x12
  | .mfc0 rt rd => rWord 0x10 0 rt rd 0 0x00
  | .mult rs rt => rWord 0x00 rs rt 0 0 0x18
  | .multu rs rt => rWord 0x00 rs rt 0 0 0x19
  | .sra rt rd shamt => rWord 0x00 0 rt rd shamt 0x03
  | .swc1 rs rt imm => iWord 0x39 rs rt imm
  | .sdc1 rs rt imm => iWord 0x3D rs rt imm
  | .blez rs imm => iWord 0x06 rs 0 imm
  | .bgtz rs imm => iWord 0x07 rs 0 imm
  | .xori rs rt imm => iWord 0x0E rs rt imm
  | .lb rs rt imm => iWord 0x20 rs rt imm
  | .lh rs rt imm => iWord 0x21 rs rt imm
  | .lwl rs rt imm => iWord 0x22 rs rt imm
  | .lwr rs rt imm => iWord 0x26 rs rt imm
  | .swl rs rt imm => iWord 0x2A rs rt imm
  | .swr rs rt imm => iWord 0x2E rs rt imm
  | .cache rs rt imm => iWord 0x2F rs rt imm
  | .lwc2 rs rt imm => iWord 0x32 rs rt imm
  | .ldc2 rs rt imm => iWord 0x36 rs rt imm
  | .pref rs rt imm => iWord 0x33 rs rt imm
  | .swc2 rs rt imm => iWord 0x3A rs rt imm
  | .sdc2 rs rt imm => iWord 0x3E rs rt imm
  | .sllv rs rt rd => rWord 0x00 rs rt rd 0 0x04
  | .srlv rs rt rd => rWord 0x00 rs rt rd 0 0x06
  | .srav rs rt rd => rWord 0x00 rs rt rd 0 0x07
  | .jalr rs rd => rWord 0x00 rs 0 rd 0 0x09
  | .movz rs rt rd => rWord 0x00 rs rt rd 0 0x0A
  | .movn rs rt rd => rWord 0x00 rs rt rd 0 0x0B
  | .syscall code => codeWord code 0x0C
  | .brk code => codeWord code 0x0D
  | .sync => rWord 0x00 0 0 0 0 0x0F
  | .mthi rs => rWord 0x00 rs 0 0 0 0x11
  | .mtlo rs => rWord 0x00 rs 0 0 0 0x13
  | .xor rs rt rd => rWord 0x00 rs rt rd 0 0x26
  | .tge rs rt code => trapWord rs rt code 0x30
  | .tgeu rs rt code => trapWord rs rt code 0x31
  | .tlt rs rt code => trapWord rs rt code 0x32
  | .tltu rs rt code => trapWord rs rt code 0x33
  | .teq rs rt code => trapWord rs rt code 0x34
  | .tne rs rt code => trapWord rs rt code 0x36
  | .sqrtS fs fd => rWord 0x11 0x10 0 fs fd 0x04
  | .sqrtD fs fd => rWord 0x11 0x11 0 fs fd 0x04
  | .absS fs fd => rWord 0x11 0x10 0 fs fd 0x05
  | .absD fs fd => rWord 0x11 0x11 0 fs fd 0x05
  | .movS fs fd => rWord 0x11 0x10 0 fs fd 0x06
  | .movD fs fd => rWord 0x11 0x11 0 fs fd 0x06
  | .negS fs fd => rWord 0x11 0x10 0 fs fd 0x07
  | .negD fs fd => rWord 0x11 0x11 0 fs fd 0x07
  | .roundWS fs fd => rWord 0x11 0x10 0 fs fd 0x0C
  | .roundWD fs fd => rWord 0x11 0x11 0 fs fd 0x0C
  | .truncWS fs fd => rWord 0x11 0x10 0 fs fd 0x0D
  | .truncWD fs fd => rWord 0x11 0x11 0 fs fd 0x0D
  | .ceilWS fs fd => rWord 0x11 0x10 0 fs fd 0x0E
  | .ceilWD fs fd => rWord 0x11 0x11 0 fs fd 0x0E
  | .floorWS fs fd => rWord 0x11 0x10 0 fs fd 0x0F
  | .floorWD fs fd => rWord 0x11 0x11 0 fs fd 0x0F
  | .cvtSS fs fd => rWord 0x11 0x10 0 fs fd 0x20
  | .cvtSD fs fd => rWord 0x11 0x11 0 fs fd 0x20
  | .cvtDS fs fd => rWord 0x11 0x10 0 fs fd 0x21
  | .cvtDD fs fd => rWord 0x11 0x11 0 fs fd 0x21
  | .cvtWS fs fd => rWord 0x11 0x10 0 fs fd 0x24
  | .cvtWD fs fd => rWord 0x11 0x11 0 fs fd 0x24
  | .movzS rt fs fd => rWord 0x11 0x10 rt fs fd 0x12
  | .movzD rt fs fd => rWord 0x11 0x11 rt fs fd 0x12
  | .movnS rt fs fd => rWord 0x11 0x10 rt fs fd 0x13
  | .movnD rt fs fd => rWord 0x11 0x11 rt fs fd 0x13
  | .cFS ft fs => rWord 0x11 0x10 ft fs 0 0x30
  | .cFD ft fs => rWord 0x11 0x11 ft fs 0 0x30
  | .cUnS ft fs => rWord 0x11 0x10 ft fs 0 0x31
  | .cUnD ft fs => rWord 0x11 0x11 ft fs 0 0x31
  | .cUeqS ft fs => rWord 0x11 0x10 ft fs 0 0x33
  | .cUeqD ft fs => rWord 0x11 0x11 ft fs 0 0x33
  | .cOltS ft fs => rWord 0x11 0x10 ft fs 0 0x34
  | .cOltD ft fs => rWord 0x11 0x11 ft fs 0 0x34
  | .cUltS ft fs => rWord 0x11 0x10 ft fs 0 0x35
  | .cUltD ft fs => rWord 0x11 0x11 ft fs 0 0x35
  | .cOleS ft fs => rWord 0x11 0x10 ft fs 0 0x36
  | .cOleD ft fs => rWord 0x11 0x11 ft fs 0 0x36
  | .cUleS ft fs => rWord 0x11 0x10 ft fs 0 0x37
  | .cUleD ft fs => rWord 0x11 0x11 ft fs 0 0x37
  | .cSfS ft fs => rWord 0x11 0x10 ft fs 0 0x38
  | .cSfD ft fs => rWord 0x11 0x11 ft fs 0 0x38
  | .cNgleS ft fs => rWord 0x11 0x10 ft fs 0 0x39
  | .cNgleD ft fs => rWord 0x11 0x11 ft fs 0 0x39
  | .cSeqS ft fs => rWord 0x11 0x10 ft fs 0 0x3A
  | .cSeqD ft fs => rWord 0x11 0x11 ft fs 0 0x3A
  | .cNglS ft fs => rWord 0x11 0x10 ft fs 0 0x3B
  | .cNglD ft fs => rWord 0x11 0x11 ft fs 0 0x3B
  | .cNgeS ft fs => rWord 0x11 0x10 ft fs 0 0x3D
  | .cNgeD ft fs => rWord 0x11 0x11 ft fs 0 0x3D
  | .cNgtS ft fs => rWord 0x11 0x10 ft fs 0 0x3F
  | .cNgtD ft fs => rWord 0x11 0x11 ft fs 0 0x3F

/-! ## Bytes (R68) -/

/-- The word whose bytes, from the lowest address up, are these four: big-endian (R63, R68). -/
def wordOfBytes (b0 b1 b2 b3 : Byte) : Word := b0 ++ b1 ++ b2 ++ b3

/-- The four bytes of a word, the most significant first (R63). -/
def bytesOfWord (w : Word) : List Byte :=
  [w.extractLsb' 24 8, w.extractLsb' 16 8, w.extractLsb' 8 8, w.extractLsb' 0 8]

/-- Decode the bytes of one instruction, from the lowest address up (R68). -/
def decodeBytes (bytes : List Byte) : Except DecodeError Instr :=
  match bytes with
  | [b0, b1, b2, b3] => decode (wordOfBytes b0 b1 b2 b3)
  | _ => .error .notOneWord

/-- The word that spec/opcode_table.json numbers as `nbits` bits `w`, every bit above them 0. -/
def tableWord (nbits w : Nat) : Word := BitVec.ofNat 32 (w % 2 ^ nbits)

/-- The instruction the decoder reads from an opcode-table word, laid out in memory order (the host's question). -/
def decodeTableWord (nbits w : Nat) : Option Instr :=
  (decodeBytes (bytesOfWord (tableWord nbits w))).toOption

end Sys2Proof
end

