-- ==== Sys2Proof/Machine/State.lean ====
section
/-! DEFINITION. The machine's state (spec/10_state.md R20 to R45), the reasons a step can stop, and the launch state. -/

namespace Sys2Proof.Machine

/-- The twelve exceptions of the EXCEPTION CODES table (R300). -/
inductive Exc where
  | int
  | adEL
  | adES
  | ibe
  | dbe
  | sys
  | bp
  | ri
  | cpU
  | ov
  | tr
  | fpe
  deriving DecidableEq, Repr

/-- Why the machine takes no step. -/
inductive Fault where
  /-- Raised by `step` alone, when the outcome is not `running` (R27 step 0: no step). Safe: the machine has already
  stopped, and nothing can be proved of a state after it. -/
  | runIsOver
  deriving DecidableEq, Repr

/-- The situations the spec gives no meaning (the outcome `refused(reason)` of R41). Each is safe: no claim about a run
that reaches one can be proved. -/
inductive Refusal where
  /-- An instruction with no meaning in this model; raised by `exec`'s own arms only. -/
  | notModelled (mnemonic : String)
  /-- Raised by every branch and jump executed in a delay slot (R141). -/
  | controlTransferInDelaySlot
  /-- Raised by every instruction in which an odd number names a double (R32, R270 (e)). -/
  | oddDoubleRegister
  /-- Raised by `mfc0` in kernel mode for a control register other than Status and Cause (R37, R176). -/
  | unknownControlRegister
  /-- Raised by every store that falls in the text segment (R67, R82). -/
  | storeIntoText
  /-- Raised by `sc` while a reservation is held for another address (R159). -/
  | scAddressMismatch
  /-- Raised by `jalr` with `rd = rs` (R251). -/
  | jalrSameRegister
  /-- Raised by `cache`: the machine has no cache (R242). -/
  | noCache
  /-- Raised by `lwc2`, `ldc2`, `swc2`, `sdc2`: the machine has no coprocessor 2 (R243, R244, R246, R247). -/
  | noCoprocessor2
  /-- Raised by `cvt.s.s` and `cvt.d.d`: a format converted to itself (R281, R282). -/
  | convertToSameFormat
  /-- Raised by every exception under `TRAP_MODEL = vectored`, which the spec does not specify (R323); never under the value
  of `Config.trapModel`. -/
  | vectoredTrap
  /-- Raised by a map-only instruction under `MAP_ONLY = refuse` (R230 (a)); never under the value of `Config.mapOnly`. -/
  | mapOnlyInstruction (mnemonic : String)
  deriving DecidableEq, Repr

/-- Why an instruction does not complete: it raises an exception, with the `info` of R300, or the spec refuses it. -/
inductive Stop where
  | raise (e : Exc) (info : Word)
  | refuse (r : Refusal)
  deriving DecidableEq, Repr

/-- The outcome of a run (R41). A step that refuses answers `refused` to the host and makes no state, so no step
writes `refused` here; it stands for a run that has been recorded as refused. -/
inductive RunOutcome where
  | running
  | faulted (code : BitVec 5) (pc : Word) (bd : Bool) (info : Word)
  | refused (reason : Refusal)
  | ended
  deriving DecidableEq, Repr

/-- The parameter `IRQ`, a function from step number to 8 bits (R313), as plain data: the values at steps 0, 1, 2, ... of a
list and one value ever after, or any function at all, of which nothing is known. -/
inductive IrqInput where
  | listed (values : List Byte) (ever : Byte)
  | free
  deriving DecidableEq, Repr

/-- Memory as the list of its bytes that differ from `Config.unlistedByte`, by rising address (R60). -/
structure Memory where
  cells : List Host.Cell
  deriving DecidableEq, Repr

/-- The complete state (R20), then the launch arguments and counters that vary from run to run
(notes/assumptions/3.md). -/
structure State where
  /-- General registers `x[0..31]` (R21). -/
  gpr      : Vector Word 32
  /-- Address of the instruction to execute (R24). -/
  pc       : Word
  /-- Address of the instruction after it (R25). -/
  npc      : Word
  /-- The instruction at `pc` is in a delay slot (R39). -/
  inDelay  : Bool
  /-- Upper word of a product, or remainder (R29). -/
  hi       : Word
  /-- Lower word of a product, or quotient (R29). -/
  lo       : Word
  /-- Floating-point registers `f[0..31]` (R30). -/
  fpr      : Vector Word 32
  /-- Floating-point condition flag (R33). -/
  fpcond   : Bool
  /-- Control register 13 (R35). -/
  cause    : Word
  /-- Control register 12 (R36). -/
  status   : Word
  /-- A load-linked reservation is held (R38). -/
  llbit    : Bool
  /-- The word address it covers (R38). -/
  lladdr   : Word
  /-- Memory (R60). -/
  mem      : Memory
  /-- Outcome of the run (R41). -/
  outcome  : RunOutcome
  /-- MODEL: the parameter `MEM_MAP` (R73). -/
  memMap   : List Region
  /-- MODEL: the launch argument `END_PC` (R346), if the launch gives one. -/
  endPc    : Option Word
  /-- MODEL: the parameter `IRQ` (R313). -/
  irq      : IrqInput
  /-- MODEL: the step number `t` that indexes `IRQ` (R355). -/
  stepNo   : Nat
  /-- MODEL: how many draws the run has taken (R10), the argument of the free values. -/
  draws    : Nat
  deriving DecidableEq, Repr

/-- The launch state (R45, R340), the spec's stand-in for reset. Where R45 says "unspecified" the value is a DESIGN
CHOICE, unsafe (notes/assumptions/1.md, 2.md, 4.md, 6.md). -/
def State.reset : State where
  gpr     := ((Vector.replicate 32 0).set 28 Config.launchGp).set 29 Config.launchSp
  pc      := Config.launchPc
  npc     := Config.launchPc + 4
  inDelay := false
  hi      := 0
  lo      := 0
  fpr     := Vector.replicate 32 0
  fpcond  := false
  cause   := Config.launchCause
  status  := Config.launchStatus
  llbit   := false
  lladdr  := 0
  mem     := ⟨[]⟩
  outcome := .running
  memMap  := Config.memMap
  endPc   := none
  irq     := .listed [] 0
  stepNo  := 0
  draws   := 0

/-- What a meaning answers. -/
abbrev Result := Host.Outcome State Fault Refusal

end Sys2Proof.Machine
end

