-- ==== Sys2Proof/Machine/Ops.lean ====
section
/-! DEFINITION. The named operations over registers and memory, taking an exception, and completing an instruction
(spec/10_state.md R21 to R39; spec/20_memory.md R60 to R82; spec/60_exceptions.md R300 to R325). -/

namespace Sys2Proof.Machine

/-! ## Memory bytes (R60) -/

/-- The byte listed for an address, or what an unlisted one reads as. -/
def Memory.lookup (cells : List Host.Cell) (a : Nat) : Byte :=
  match cells with
  | [] => Config.unlistedByte
  | (k, v) :: rest => if a = k then v else Memory.lookup rest a

/-- The list with the byte at an address replaced, in the canonical form. -/
def Memory.insert (cells : List Host.Cell) (a : Nat) (b : Byte) : List Host.Cell :=
  match cells with
  | [] => if b = Config.unlistedByte then [] else [(a, b)]
  | (k, v) :: rest =>
    if a < k then (if b = Config.unlistedByte then (k, v) :: rest else (a, b) :: (k, v) :: rest)
    else if a = k then (if b = Config.unlistedByte then rest else (a, b) :: rest)
    else (k, v) :: Memory.insert rest a b

/-- The canonical form of a list of cells: above `low`, strictly rising, below 2^32, nothing equal to an unlisted byte. -/
def Memory.canonicalFrom (low : Nat) (cells : List Host.Cell) : Bool :=
  match cells with
  | [] => true
  | (k, v) :: rest => decide (low ≤ k) && decide (k < 2 ^ 32) && decide (v ≠ Config.unlistedByte) && Memory.canonicalFrom (k + 1) rest

/-- The canonical form holds. -/
def Memory.wf (m : Memory) : Bool := Memory.canonicalFrom 0 m.cells

/-- `mem[a]` (R60). -/
def Memory.read (m : Memory) (a : Word) : Byte := Memory.lookup m.cells a.toNat

/-- `mem[a] <- b` (R60). -/
def Memory.write (m : Memory) (a : Word) (b : Byte) : Memory := ⟨Memory.insert m.cells a.toNat b⟩

/-- The halfword at `a`: the byte at `a` more significant (R63, R64). -/
def Memory.readHalf (m : Memory) (a : Word) : Half := m.read a ++ m.read (a + 1)

/-- The word at `a`: the byte at `a` most significant (R63, R66). -/
def Memory.readWord (m : Memory) (a : Word) : Word :=
  wordOfBytes (m.read a) (m.read (a + 1)) (m.read (a + 2)) (m.read (a + 3))

/-- The double word at `a`: the word at `a` more significant (R63, R65). -/
def Memory.readDouble (m : Memory) (a : Word) : Double := m.readWord a ++ m.readWord (a + 4)

/-- Store a halfword, its more significant byte at `a` (R67). -/
def Memory.writeHalf (m : Memory) (a : Word) (v : Half) : Memory :=
  (m.write a (v.extractLsb' 8 8)).write (a + 1) (v.extractLsb' 0 8)

/-- Store a word, its most significant byte at `a` (R67). -/
def Memory.writeWord (m : Memory) (a : Word) (v : Word) : Memory :=
  (((m.write a (v.extractLsb' 24 8)).write (a + 1) (v.extractLsb' 16 8)).write (a + 2) (v.extractLsb' 8 8)).write
    (a + 3) (v.extractLsb' 0 8)

/-- Store a double word, its more significant word at `a` (R67). -/
def Memory.writeDouble (m : Memory) (a : Word) (v : Double) : Memory :=
  (m.writeWord a (v.extractLsb' 32 32)).writeWord (a + 4) (v.extractLsb' 0 32)

/-! ## Registers -/

/-- `x[i]` (R21): register 0 reads 0. -/
def State.x (s : State) (i : RegNum) : Word := if i = 0#5 then 0#32 else s.gpr[i.toNat]'i.isLt

/-- `x[i] <- v` (R21): a write to register 0 is discarded. -/
def State.setX (s : State) (i : RegNum) (v : Word) : State :=
  { s with gpr := if i = 0#5 then s.gpr else s.gpr.set i.toNat v i.isLt }

/-- `f[i]` (R30). -/
def State.f (s : State) (i : RegNum) : Word := s.fpr[i.toNat]'i.isLt

/-- `f[i] <- v` (R30): no floating-point register is hard-wired. -/
def State.setF (s : State) (i : RegNum) (v : Word) : State :=
  { s with fpr := s.fpr.set i.toNat v i.isLt }

/-- `d[n] = f[n] ++ f[n+1]` (R32). -/
def State.d (s : State) (n : RegNum) : Double := s.f n ++ s.f (n + 1#5)

/-- `d[n] <- v` (R32): the high word to `f[n]`, the low word to `f[n+1]`. -/
def State.setD (s : State) (n : RegNum) (v : Double) : State :=
  (s.setF n (v.extractLsb' 32 32)).setF (n + 1#5) (v.extractLsb' 0 32)

/-- `hi` and `lo` written together (R29, R178). -/
def State.setHiLo (s : State) (h l : Word) : State := { s with hi := h, lo := l }

/-- `hi` written alone (R257). -/
def State.setHi (s : State) (v : Word) : State := { s with hi := v }

/-- `lo` written alone (R258). -/
def State.setLo (s : State) (v : Word) : State := { s with lo := v }

/-- `fpcond` written (R33). -/
def State.setFpcond (s : State) (b : Bool) : State := { s with fpcond := b }

/-- Memory written. -/
def State.setMem (s : State) (m : Memory) : State := { s with mem := m }

/-- `llbit <- 1`, `lladdr <- a` (R155). -/
def State.reserve (s : State) (a : Word) : State := { s with llbit := true, lladdr := a }

/-- `llbit <- 0` (R38). -/
def State.clearLink (s : State) : State := { s with llbit := false }

/-- `n` draws taken (R10). -/
def State.drawn (s : State) (n : Nat) : State := { s with draws := s.draws + n }

/-! ## Control registers and modes -/

/-- `status.IE`, bit 0 (R36). -/
def State.ie (s : State) : Bool := s.status.getLsbD 0
/-- `status.EL`, bit 1 (R36). -/
def State.el (s : State) : Bool := s.status.getLsbD 1
/-- `status.UM`, bit 4 (R36). -/
def State.um (s : State) : Bool := s.status.getLsbD 4
/-- `status.IM`, bits 15:8 (R36). -/
def State.im (s : State) : Byte := s.status.extractLsb' 8 8
/-- `cause.BD`, bit 31 (R35). -/
def State.bd (s : State) : Bool := s.cause.getLsbD 31
/-- `cause.IP`, bits 15:8 (R35). -/
def State.ip (s : State) : Byte := s.cause.extractLsb' 8 8
/-- `cause.ExcCode`, bits 6:2 (R35). -/
def State.excCode (s : State) : BitVec 5 := s.cause.extractLsb' 2 5

/-- Kernel mode: UM = 0 or EL = 1 (R325). -/
def State.kernelMode (s : State) : Bool := !s.um || s.el

/-- The number of an exception (R300). -/
def Exc.code : Exc → BitVec 5
  | .int  => 0
  | .adEL => 4
  | .adES => 5
  | .ibe  => 6
  | .dbe  => 7
  | .sys  => 8
  | .bp   => 9
  | .ri   => 10
  | .cpU  => 11
  | .ov   => 12
  | .tr   => 13
  | .fpe  => 15

/-- Cause with BD and ExcCode written and every other bit kept (R35, R320 lines 2 and 3). -/
def causeWith (cause : Word) (bd : Bool) (code : BitVec 5) : Word :=
  (cause &&& ~~~0x8000007C#32) ||| place (BitVec.ofBool bd) 31 ||| place code 2

/-- Cause with IP written and every other bit kept (R35, D21). -/
def causeWithIp (cause : Word) (ip : Byte) : Word :=
  (cause &&& ~~~0x0000FF00#32) ||| place ip 8

/-! ## Taking an exception (R320) -/

/-- Exception entry under `TRAP_MODEL = terminal` (R320): ExcCode, BD, EL, `llbit` and the outcome are written;
`pc`, `npc`, `in_delay` and every other register keep their values. There is no return from it (R321). -/
def State.takeException (s : State) (e : Exc) (info : Word) : State :=
  { s with
    cause   := causeWith s.cause s.inDelay e.code
    status  := s.status ||| 0x00000002
    llbit   := false
    outcome := .faulted e.code s.pc s.inDelay info }

/-- `raise e(info)`: the instruction writes nothing and the exception is taken on the state before it (R10, R320); under
`TRAP_MODEL = vectored` the spec gives it no meaning (R323). -/
def raise (e : Exc) (info : Word) (s : State) : Result :=
  match Config.trapModel with
  | .terminal => .next (s.takeException e info)
  | .vectored => .refused .vectoredTrap

/-- The instruction word an exception records (R300): with strict fields an instruction has one word, without them it is
the word at `pc`. -/
def instrWord (i : Instr) (s : State) : Word := if Config.strictFields then encode i else s.mem.readWord s.pc

/-- The end of an instruction that does not complete. -/
def stopped (s : State) : Stop → Result
  | .raise e info => raise e info s
  | .refuse r => .refused r

/-! ## Completing an instruction (R27 steps 7 and 10) -/

/-- `pc <- npc`, `npc <- npc + 4`, `in_delay <- 0`. -/
def State.advance (s : State) : State := { s with pc := s.npc, npc := s.npc + 4, inDelay := false }

/-- An instruction that is no branch or jump completes, `s` holding its writes. -/
def done (s : State) : Result := .next s.advance

/-- An instruction completes with the state its checks allow, or stops on the state before it (`s`). -/
def complete (s : State) (r : Except Stop State) : Result :=
  match r with
  | .ok t => done t
  | .error stop => stopped s stop

/-- `pc <- target` (R26): the transfer takes effect after the delay slot, and a branch not taken (`none`) still has
one; under `BRANCH_DELAY = immediate` there is no slot. -/
def State.transfer (s : State) (target : Option Word) : State :=
  match Config.branchDelay with
  | .delayed => { s with pc := s.npc, npc := target.getD (s.npc + 4), inDelay := true }
  | .immediate => { s with pc := target.getD s.npc, npc := target.getD s.npc + 4, inDelay := false }

/-- A branch or jump completes, `s` holding its link register: refused in a delay slot (R141). -/
def transferTo (target : Option Word) (s : State) : Result :=
  if s.inDelay then .refused .controlTransferInDelaySlot else .next (s.transfer target)

/-- The treatment of a map-only instruction (R230). -/
def mapOnly (mnemonic : String) (meaning : Result) : Result :=
  match Config.mapOnly with
  | .generalKnowledge => meaning
  | .refuse => .refused (.mapOnlyInstruction mnemonic)

/-! ## Checked memory access (R66, R67) -/

/-- `MEM_MAP` allows a kind of access to the byte at `a` (R73). -/
def mapped (m : List Region) (k : Access) (a : Word) : Bool :=
  m.any fun r => decide (r.first ≤ a.toNat) && decide (a.toNat ≤ r.last) && r.allows k

/-- `MEM_MAP` allows a kind of access to every byte `a` to `a + n - 1`. -/
def mappedAll (m : List Region) (k : Access) (a : Word) (n : Nat) : Bool :=
  (List.range n).all fun i => mapped m k (a + BitVec.ofNat 32 i)

/-- The address lies in the text segment (R73, R82). -/
def inText (a : Word) : Bool := decide (Config.textFirst ≤ a.toNat) && decide (a.toNat ≤ Config.textLast)

/-- The address is a multiple of the access size (R69). -/
def aligned (a : Word) (n : Nat) : Bool := a.toNat % n == 0

/-- The alignment check of a load (R66). -/
def alignedLoad (a : Word) (n : Nat) : Except Stop Unit :=
  if aligned a n then .ok () else .error (.raise .adEL a)

/-- The alignment check of a store (R67). -/
def alignedStore (a : Word) (n : Nat) : Except Stop Unit :=
  if aligned a n then .ok () else .error (.raise .adES a)

/-- The mapping check of a load (R66, R74). -/
def mappedLoad (s : State) (a : Word) (n : Nat) : Except Stop Unit :=
  if mappedAll s.memMap .read a n then .ok () else .error (.raise .dbe a)

/-- The mapping check of a store (R67, R74): a store into text is refused (R82). -/
def mappedStore (s : State) (a : Word) (n : Nat) : Except Stop Unit :=
  if mappedAll s.memMap .write a n then .ok ()
  else if inText a then .error (.refuse .storeIntoText)
  else .error (.raise .dbe a)

/-- The checks of `MemRead(a, n)` in order (R66, R151). -/
def checkLoad (s : State) (a : Word) (n : Nat) : Except Stop Unit :=
  (alignedLoad a n).bind fun _ => mappedLoad s a n

/-- The checks of `MemWrite(a, n, v)` in order (R67, R151). -/
def checkStore (s : State) (a : Word) (n : Nat) : Except Stop Unit :=
  (alignedStore a n).bind fun _ => mappedStore s a n

/-- `MemRead(a, 1)` (R66). -/
def loadByte (s : State) (a : Word) : Except Stop Byte := (checkLoad s a 1).map fun _ => s.mem.read a
/-- `MemRead(a, 2)` (R66). -/
def loadHalf (s : State) (a : Word) : Except Stop Half := (checkLoad s a 2).map fun _ => s.mem.readHalf a
/-- `MemRead(a, 4)` (R66). -/
def loadWord (s : State) (a : Word) : Except Stop Word := (checkLoad s a 4).map fun _ => s.mem.readWord a

/-- `MemWrite(a, 1, v)` (R67). -/
def storeByte (s : State) (a : Word) (v : Byte) : Except Stop State :=
  (checkStore s a 1).map fun _ => s.setMem (s.mem.write a v)
/-- `MemWrite(a, 2, v)` (R67). -/
def storeHalf (s : State) (a : Word) (v : Half) : Except Stop State :=
  (checkStore s a 2).map fun _ => s.setMem (s.mem.writeHalf a v)
/-- `MemWrite(a, 4, v)` (R67). -/
def storeWord (s : State) (a : Word) (v : Word) : Except Stop State :=
  (checkStore s a 4).map fun _ => s.setMem (s.mem.writeWord a v)

/-! ## The step's own operations (R27 steps 1 to 5) -/

/-- `IRQ(t)` (R313). -/
def irqAt (irq : IrqInput) (t : Nat) : Byte :=
  match irq with
  | .listed values ever => (values[t]?).getD ever
  | .free => Config.freeIrq t

/-- `IRQ` at this step (R313). -/
def State.irqNow (s : State) : Byte := irqAt s.irq s.stepNo

/-- The start of a step: the lines are copied into `cause.IP` and the step number advances (R35, R313, D21). -/
def State.sampleIrq (s : State) : State :=
  { s with cause := causeWithIp s.cause s.irqNow, stepNo := s.stepNo + 1 }

/-- `pc = END_PC` outside a delay slot (R346). -/
def State.atEnd (s : State) : Bool := decide (s.endPc = some s.pc) && !s.inDelay

/-- The outcome becomes `ended` (R346). -/
def State.finish (s : State) : State := { s with outcome := .ended }

/-- The interrupt condition (R311). -/
def State.interruptCondition (s : State) : Bool := s.ie && !s.el && decide (s.ip &&& s.im ≠ 0)

/-- Fetch the word at `pc` (R27 steps 3 to 5, R68): AdEL if misaligned (R70), IBE if not executable (R74). -/
def fetchWord (s : State) : Except Stop Word :=
  if s.pc.extractLsb' 0 2 ≠ 0 then .error (.raise .adEL s.pc)
  else if !mappedAll s.memMap .fetch s.pc 4 then .error (.raise .ibe s.pc)
  else .ok (s.mem.readWord s.pc)

/-- Decode the fetched word; a reserved one raises RI with the word (R27 step 6, R106). -/
def decodeFetched (w : Word) : Except Stop Instr :=
  match decode w with
  | .ok i => .ok i
  | .error _ => .error (.raise .ri w)

/-- The instruction at `pc` (R27 steps 3 to 6). -/
def fetchInstr (s : State) : Except Stop Instr := (fetchWord s).bind decodeFetched

/-- The word stored at `pc`, so that the next fetch reads it (R68). -/
def State.placeAtPc (s : State) (w : Word) : State := s.setMem (s.mem.writeWord s.pc w)

end Sys2Proof.Machine
end

