-- ==== Sys2Proof/Machine/Operands.lean ====
section
/-! DEFINITION. Operand forms: the derived immediates of spec/30_encoding.md R95 to R98, effective addresses
(spec/42_core_memory.md R150), the aligned word of the unaligned accesses (spec/46_opmap_integer.md R236) and the register
numbers of doubles (spec/10_state.md R32). -/

namespace Sys2Proof.Machine

/-- `SignExtImm` (R95). -/
def signExtImm (imm : Half) : Word := imm.signExtend 32

/-- `ZeroExtImm` (R96). -/
def zeroExtImm (imm : Half) : Word := imm.setWidth 32

/-- `{imm, 16'b0}`, the operand of `lui` (R96, R126). -/
def upperImm (imm : Half) : Word := imm ++ (0 : BitVec 16)

/-- `BranchAddr` (R97): the immediate with two zero bits below it, sign-extended. -/
def branchAddr (imm : Half) : Word := (imm ++ (0 : BitVec 2)).signExtend 32

/-- A branch's target, `PC + 4 + BranchAddr` modulo 2^32 (R97). -/
def branchTarget (pc : Word) (imm : Half) : Word := pc + 4 + branchAddr imm

/-- `JumpAddr` (R98): the top four bits of `PC + 4`, the address field, two zero bits. -/
def jumpAddr (pc : Word) (addr : BitVec 26) : Word := (pc + 4).extractLsb' 28 4 ++ addr ++ (0 : BitVec 2)

/-- The effective address of a load or store (R150). -/
def State.ea (s : State) (rs : RegNum) (imm : Half) : Word := s.x rs + signExtImm imm

/-- The address of the aligned word that contains `a` (R236). -/
def wordBase (a : Word) : Word := a &&& ~~~3#32

/-- `addr[1:0]` (R236). -/
def byteInWord (a : Word) : Nat := a.toNat % 4

/-- The shift count of a shift by register: the low five bits (R248). -/
def shiftCount (v : Word) : Nat := (v.extractLsb' 0 5).toNat

/-- A register number that may name a double is even (R32). -/
def namesDouble (n : RegNum) : Bool := n.toNat % 2 == 0

/-- Every register number that names a double must be even, else the instruction is refused (R32, R270 (e)). -/
def evenOnly (ns : List RegNum) : Except Stop Unit :=
  if ns.all namesDouble then .ok () else .error (.refuse .oddDoubleRegister)

end Sys2Proof.Machine
end

