-- ==== Sys2Proof/Machine/Control.lean ====
section
/-! DEFINITION. Branches and jumps (spec/41_core_control.md R140 to R149, spec/44_arith_fp.md R204, R205,
spec/46_opmap_integer.md R231, R232, R251). Each has a delay slot and is refused in one. -/

namespace Sys2Proof.Machine

/-- A branch to the target of R97 when its condition holds; taken or not, the next instruction is in a delay slot
(R26, R140). -/
def branchIf (taken : Bool) (imm : Half) (s : State) : Result :=
  transferTo (if taken then some (branchTarget s.pc imm) else none) s

/-- `beq` (R142). -/
def execBeq (rs rt : RegNum) (imm : Half) (s : State) : Result := branchIf (s.x rs == s.x rt) imm s

/-- `bne` (R143). -/
def execBne (rs rt : RegNum) (imm : Half) (s : State) : Result := branchIf (s.x rs != s.x rt) imm s

/-- `j` (R144). -/
def execJ (addr : BitVec 26) (s : State) : Result := transferTo (some (jumpAddr s.pc addr)) s

/-- `jal` (R145): register 31 links the address after the delay slot. -/
def execJal (addr : BitVec 26) (s : State) : Result :=
  transferTo (some (jumpAddr s.pc addr)) (s.setX 31 (s.pc + 8))

/-- `jr` (R146): all 32 bits of the register; a bad target faults when it is fetched (R149). -/
def execJr (rs : RegNum) (s : State) : Result := transferTo (some (s.x rs)) s

/-- `bc1t` (R204). -/
def execBc1t (imm : Half) (s : State) : Result := branchIf s.fpcond imm s

/-- `bc1f` (R205). -/
def execBc1f (imm : Half) (s : State) : Result := branchIf (!s.fpcond) imm s

/-- `blez` (R231). -/
def execBlez (rs : RegNum) (imm : Half) (s : State) : Result :=
  mapOnly "blez" (branchIf (decide ((s.x rs).toInt ≤ 0)) imm s)

/-- `bgtz` (R232). -/
def execBgtz (rs : RegNum) (imm : Half) (s : State) : Result :=
  mapOnly "bgtz" (branchIf (decide ((s.x rs).toInt > 0)) imm s)

/-- `jalr` (R251): the target is read before the link is written; `rd = rs` is refused, after the check for a delay slot
(R27 step 8). -/
def execJalr (rs rd : RegNum) (s : State) : Result :=
  mapOnly "jalr"
    (if rd = rs ∧ s.inDelay = false then .refused .jalrSameRegister
     else transferTo (some (s.x rs)) (s.setX rd (s.pc + 8)))

end Sys2Proof.Machine
end

