-- ==== Sys2Proof/Machine/Float.lean ====
section
/-! DEFINITION. IEEE 754 arithmetic on bit patterns, `FP_ARITH = ieee_rne` (spec/44_arith_fp.md R185 to R188, spec/47_opmap_fp.md
R270 to R283). Every finite value of a format is an integer multiple of that format's smallest denormal, its unit, so
operands are read as exact integers, the operation is computed exactly, and the result is rounded once. -/

namespace Sys2Proof.Machine

/-- The two formats (R185, R186). -/
inductive Fmt where
  | single
  | double
  deriving DecidableEq, Repr

/-- Width of Fraction. -/
def Fmt.fracBits : Fmt → Nat
  | .single => 23
  | .double => 52

/-- Width of Exponent. -/
def Fmt.expBits : Fmt → Nat
  | .single => 8
  | .double => 11

/-- MAX, the largest Exponent (R187). -/
def Fmt.expMax : Fmt → Nat
  | .single => 255
  | .double => 2047

/-- Bias (R185, R186). -/
def Fmt.bias : Fmt → Nat
  | .single => 127
  | .double => 1023

/-- The unit is `2^-unitExp`, with `unitExp = Bias - 1 + fracBits`: 149 and 1074. -/
def Fmt.unitExp (f : Fmt) : Nat := f.bias - 1 + f.fracBits

/-- The weight of the sign bit S. -/
def Fmt.signWeight (f : Fmt) : Nat := 2 ^ (f.expBits + f.fracBits)

/-- The pattern of +∞. -/
def Fmt.infMag (f : Fmt) : Nat := f.expMax * 2 ^ f.fracBits

/-- The S bit of a pattern. -/
def Fmt.signOf (f : Fmt) (bits : Nat) : Bool := bits / f.signWeight % 2 == 1

/-- The Exponent field of a pattern. -/
def Fmt.expOf (f : Fmt) (bits : Nat) : Nat := bits / 2 ^ f.fracBits % 2 ^ f.expBits

/-- The Fraction field of a pattern. -/
def Fmt.fracOf (f : Fmt) (bits : Nat) : Nat := bits % 2 ^ f.fracBits

/-- The five classes of bit pattern (R187). -/
inductive FpClass where
  | zero
  | denorm
  | normal
  | infinity
  | nan
  deriving DecidableEq, Repr

/-- The class of a pattern (R187). -/
def Fmt.classOf (f : Fmt) (bits : Nat) : FpClass :=
  if f.expOf bits = 0 then (if f.fracOf bits = 0 then .zero else .denorm)
  else if f.expOf bits = f.expMax then (if f.fracOf bits = 0 then .infinity else .nan)
  else .normal

/-- What a pattern stands for: a finite value is `±mag` units of its format. -/
inductive FpVal where
  | nan
  | inf (neg : Bool)
  | fin (neg : Bool) (mag : Nat)
  deriving DecidableEq, Repr

/-- The value of a pattern (R185, R186, R187): a normal one is `(2^fracBits + Fraction) * 2^(Exponent - 1)` units,
a denormal one `Fraction` units. -/
def Fmt.value (f : Fmt) (bits : Nat) : FpVal :=
  match f.classOf bits with
  | .nan => .nan
  | .infinity => .inf (f.signOf bits)
  | .normal => .fin (f.signOf bits) ((2 ^ f.fracBits + f.fracOf bits) * 2 ^ (f.expOf bits - 1))
  | .denorm => .fin (f.signOf bits) (f.fracOf bits)
  | .zero => .fin (f.signOf bits) 0

/-- A single's value (R185). -/
def single (w : Word) : FpVal := Fmt.single.value w.toNat

/-- A double's value (R186). -/
def double (v : Double) : FpVal := Fmt.double.value v.toNat

/-- A signed magnitude as an integer. -/
def signed (neg : Bool) (mag : Nat) : Int := if neg then -(mag : Int) else mag

/-! ## Rounding (R188 (a), (b)) -/

/-- `num / den` rounded to the nearest integer, ties to even. -/
def nearestEven (num den : Nat) : Nat :=
  let q := num / den
  let r := num % den
  if 2 * r < den then q else if den < 2 * r then q + 1 else q + q % 2

/-- The pattern, without S, of `num / den` units rounded to nearest even: `fracBits + 1` significant bits, denormals
kept, too large a value to infinity. The quantum is `2^k` units; the pattern counts quanta on from the Exponent. -/
def Fmt.roundMag (f : Fmt) (num den : Nat) : Nat :=
  if num = 0 then 0
  else
    let k := (num / den).log2 - f.fracBits
    min f.infMag (k * 2 ^ f.fracBits + nearestEven num (den * 2 ^ k))

/-- The result of an operation: a pattern, or some NaN whose sign and fraction are a draw (R188 (d)). -/
inductive FpResult where
  | bits (n : Nat)
  | nan
  deriving DecidableEq, Repr

/-- A pattern from its sign and the rest. -/
def Fmt.pattern (f : Fmt) (neg : Bool) (mag : Nat) : FpResult := .bits ((if neg then f.signWeight else 0) + mag)

/-- ±∞. -/
def Fmt.infinity (f : Fmt) (neg : Bool) : FpResult := f.pattern neg f.infMag

/-- `±num/den` units rounded to the format. -/
def Fmt.round (f : Fmt) (neg : Bool) (num den : Nat) : FpResult := f.pattern neg (f.roundMag num den)

/-! ## Arithmetic (R188) -/

/-- The value with the opposite sign. -/
def FpVal.neg : FpVal → FpVal
  | .nan => .nan
  | .inf n => .inf !n
  | .fin n m => .fin (!n) m

/-- Addition (R188 (a) to (d)): an exact zero sum is -0 only when both operands are negative. -/
def Fmt.add (f : Fmt) : FpVal → FpVal → FpResult
  | .nan, _ => .nan
  | _, .nan => .nan
  | .inf a, .inf b => if a = b then f.infinity a else .nan
  | .inf a, .fin _ _ => f.infinity a
  | .fin _ _, .inf b => f.infinity b
  | .fin a m, .fin b n =>
    let sum := signed a m + signed b n
    if sum = 0 then f.pattern (a && b) 0 else f.round (decide (sum < 0)) sum.natAbs 1

/-- Subtraction: `a - b = a + (-b)` (R188 (c)). -/
def Fmt.sub (f : Fmt) (a b : FpVal) : FpResult := f.add a b.neg

/-- Multiplication (R188). -/
def Fmt.mul (f : Fmt) : FpVal → FpVal → FpResult
  | .nan, _ => .nan
  | _, .nan => .nan
  | .inf a, .inf b => f.infinity (a != b)
  | .inf a, .fin b n => if n = 0 then .nan else f.infinity (a != b)
  | .fin a m, .inf b => if m = 0 then .nan else f.infinity (a != b)
  | .fin a m, .fin b n => f.round (a != b) (m * n) (2 ^ f.unitExp)

/-- Division (R188 (d), (e)). -/
def Fmt.div (f : Fmt) : FpVal → FpVal → FpResult
  | .nan, _ => .nan
  | _, .nan => .nan
  | .inf _, .inf _ => .nan
  | .inf a, .fin b _ => f.infinity (a != b)
  | .fin a _, .inf b => f.pattern (a != b) 0
  | .fin a m, .fin b n =>
    if n = 0 then (if m = 0 then .nan else f.infinity (a != b))
    else if m = 0 then f.pattern (a != b) 0
    else f.round (a != b) (m * 2 ^ f.unitExp) n

/-- `floor (sqrt x)` when `x < 4^k` and `r = 0`: the bits of the root from the highest down. -/
def isqrtFrom (k x r : Nat) : Nat :=
  match k with
  | 0 => r
  | k + 1 => if (r + 2 ^ k) * (r + 2 ^ k) ≤ x then isqrtFrom k x (r + 2 ^ k) else isqrtFrom k x r

/-- `floor (sqrt x)`. -/
def isqrt (x : Nat) : Nat := isqrtFrom (x.log2 / 2 + 1) x 0

/-- The pattern of the square root of `mag` units. The root is found with two bits more than the format keeps, and an
inexact one is moved half a unit of its last place, off every tie. -/
def Fmt.sqrtMag (f : Fmt) (mag : Nat) : Nat :=
  let x := mag * 2 ^ f.unitExp
  let j := x.log2 / 2 - (f.fracBits + 2)
  let r := isqrt (x / 4 ^ j)
  f.roundMag ((2 * r + (if r * r * 4 ^ j = x then 0 else 1)) * 2 ^ j) 2

/-- Square root (R271). -/
def Fmt.sqrt (f : Fmt) : FpVal → FpResult
  | .nan => .nan
  | .inf a => if a then .nan else f.infinity false
  | .fin a m => if m = 0 then f.pattern a 0 else if a then .nan else f.pattern false (f.sqrtMag m)

/-- The sign bit cleared, or a NaN draw (R272). -/
def Fmt.absBits (f : Fmt) (bits : Nat) : FpResult :=
  if f.classOf bits = .nan then .nan else .bits (bits % f.signWeight)

/-- The sign bit inverted, or a NaN draw (R274). -/
def Fmt.negBits (f : Fmt) (bits : Nat) : FpResult :=
  if f.classOf bits = .nan then .nan else f.pattern (!f.signOf bits) (bits % f.signWeight)

/-! ## Conversions (R270, R275 to R283) -/

/-- Double to single: rounded to nearest even (R281). -/
def doubleToSingle : FpVal → FpResult
  | .nan => .nan
  | .inf a => Fmt.single.infinity a
  | .fin a m => Fmt.single.round a m (2 ^ (Fmt.double.unitExp - Fmt.single.unitExp))

/-- Single to double: exact (R282). -/
def singleToDouble : FpVal → FpResult
  | .nan => .nan
  | .inf a => Fmt.double.infinity a
  | .fin a m => if m = 0 then Fmt.double.pattern a 0
    else Fmt.double.round a (m * 2 ^ (Fmt.double.unitExp - Fmt.single.unitExp)) 1

/-- The rounding directions of the conversions to a 32-bit integer (R275 to R278, R283). -/
inductive Rounding where
  | nearestEven
  | towardZero
  | towardPlus
  | towardMinus
  deriving DecidableEq, Repr

/-- `±num/den` rounded to an integer in a direction. -/
def Rounding.toInt (mode : Rounding) (neg : Bool) (num den : Nat) : Int :=
  let up := (num + den - 1) / den
  let down := num / den
  match mode with
  | .nearestEven => signed neg (Machine.nearestEven num den)
  | .towardZero => signed neg down
  | .towardPlus => signed neg (if neg then down else up)
  | .towardMinus => signed neg (if neg then up else down)

/-- The 32-bit integer a value converts to, or none where the result is a draw: out of range, an infinity, a NaN (R270 (c)). -/
def Fmt.toInt32 (f : Fmt) (mode : Rounding) : FpVal → Option Word
  | .nan => none
  | .inf _ => none
  | .fin a m =>
    let n := if m = 0 then 0 else mode.toInt a m (2 ^ f.unitExp)
    if -2 ^ 31 ≤ n ∧ n ≤ 2 ^ 31 - 1 then some (BitVec.ofInt 32 n) else none

/-! ## NaN draws (R188 (d)) -/

/-- A single NaN with the sign and fraction of a drawn word; a drawn fraction of 0, which no NaN has, reads as 1. -/
def nanSingle (w : BitVec 32) : Word :=
  (w ||| 0x7F800000#32) ||| (if w.extractLsb' 0 23 = 0 then 1#32 else 0#32)

/-- A double NaN, likewise. -/
def nanDouble (v : BitVec 64) : Double :=
  (v ||| 0x7FF0000000000000#64) ||| (if v.extractLsb' 0 52 = 0 then 1#64 else 0#64)

end Sys2Proof.Machine
end

