-- ==== Sys2Proof/Machine/FpArith.lean ====
section
/-! DEFINITION. Floating-point arithmetic and moves (spec/44_arith_fp.md R189 to R196, spec/47_opmap_fp.md R271 to R274, R279, R280),
and how a result is delivered to the register file (R188 (d), R270). -/

namespace Sys2Proof.Machine

/-- `f[fd] <- draw(32)` (R10). -/
def State.drawSingle (s : State) (fd : RegNum) : State := (s.setF fd (Config.freeWord s.draws)).drawn 1

/-- `d[fd] <- draw(64)` (R10). -/
def State.drawDouble (s : State) (fd : RegNum) : State := (s.setD fd (Config.freeDouble s.draws)).drawn 1

/-- A single-precision result into `f[fd]`: a NaN takes a draw (R188 (d)), and so does every result under
`FP_ARITH = opaque`. -/
def State.putSingle (s : State) (fd : RegNum) (r : FpResult) : State :=
  match Config.fpArith with
  | .opaqueResults => s.drawSingle fd
  | .ieeeRne =>
    match r with
    | .bits n => s.setF fd (BitVec.ofNat 32 n)
    | .nan => (s.setF fd (nanSingle (Config.freeWord s.draws))).drawn 1

/-- A double-precision result into `d[fd]`, likewise. -/
def State.putDouble (s : State) (fd : RegNum) (r : FpResult) : State :=
  match Config.fpArith with
  | .opaqueResults => s.drawDouble fd
  | .ieeeRne =>
    match r with
    | .bits n => s.setD fd (BitVec.ofNat 64 n)
    | .nan => (s.setD fd (nanDouble (Config.freeDouble s.draws))).drawn 1

/-- A conversion to a 32-bit integer into `f[fd]`: one with no stated value takes a draw (R270 (c)), and so does every one
under `FP_ARITH = opaque` (R270 (a)). -/
def State.putInt (s : State) (fd : RegNum) (r : Option Word) : State :=
  match Config.fpArith with
  | .opaqueResults => s.drawSingle fd
  | .ieeeRne =>
    match r with
    | some v => s.setF fd v
    | none => s.drawSingle fd

/-- An instruction whose doubles must be even (R32), completing with `t`. -/
def withDoubles (ns : List RegNum) (s t : State) : Result := complete s ((evenOnly ns).map fun _ => t)

/-- `add.s` (R189). -/
def execAddS (ft fs fd : RegNum) (s : State) : Result :=
  done (s.putSingle fd (Fmt.single.add (single (s.f fs)) (single (s.f ft))))

/-- `add.d` (R190). -/
def execAddD (ft fs fd : RegNum) (s : State) : Result :=
  withDoubles [ft, fs, fd] s (s.putDouble fd (Fmt.double.add (double (s.d fs)) (double (s.d ft))))

/-- `sub.s` (R191). -/
def execSubS (ft fs fd : RegNum) (s : State) : Result :=
  done (s.putSingle fd (Fmt.single.sub (single (s.f fs)) (single (s.f ft))))

/-- `sub.d` (R192). -/
def execSubD (ft fs fd : RegNum) (s : State) : Result :=
  withDoubles [ft, fs, fd] s (s.putDouble fd (Fmt.double.sub (double (s.d fs)) (double (s.d ft))))

/-- `mul.s` (R193). -/
def execMulS (ft fs fd : RegNum) (s : State) : Result :=
  done (s.putSingle fd (Fmt.single.mul (single (s.f fs)) (single (s.f ft))))

/-- `mul.d` (R194). -/
def execMulD (ft fs fd : RegNum) (s : State) : Result :=
  withDoubles [ft, fs, fd] s (s.putDouble fd (Fmt.double.mul (double (s.d fs)) (double (s.d ft))))

/-- `div.s` (R195). -/
def execDivS (ft fs fd : RegNum) (s : State) : Result :=
  done (s.putSingle fd (Fmt.single.div (single (s.f fs)) (single (s.f ft))))

/-- `div.d` (R196). -/
def execDivD (ft fs fd : RegNum) (s : State) : Result :=
  withDoubles [ft, fs, fd] s (s.putDouble fd (Fmt.double.div (double (s.d fs)) (double (s.d ft))))

/-- `sqrt.s` (R271). -/
def execSqrtS (fs fd : RegNum) (s : State) : Result :=
  mapOnly "sqrt.s" (done (s.putSingle fd (Fmt.single.sqrt (single (s.f fs)))))

/-- `sqrt.d` (R271). -/
def execSqrtD (fs fd : RegNum) (s : State) : Result :=
  mapOnly "sqrt.d" (withDoubles [fs, fd] s (s.putDouble fd (Fmt.double.sqrt (double (s.d fs)))))

/-- `abs.s` (R272). -/
def execAbsS (fs fd : RegNum) (s : State) : Result :=
  mapOnly "abs.s" (done (s.putSingle fd (Fmt.single.absBits (s.f fs).toNat)))

/-- `abs.d` (R272). -/
def execAbsD (fs fd : RegNum) (s : State) : Result :=
  mapOnly "abs.d" (withDoubles [fs, fd] s (s.putDouble fd (Fmt.double.absBits (s.d fs).toNat)))

/-- `mov.s` (R273): a bit copy. -/
def execMovS (fs fd : RegNum) (s : State) : Result := mapOnly "mov.s" (done (s.setF fd (s.f fs)))

/-- `mov.d` (R273): a bit copy. -/
def execMovD (fs fd : RegNum) (s : State) : Result :=
  mapOnly "mov.d" (withDoubles [fs, fd] s (s.setD fd (s.d fs)))

/-- `neg.s` (R274). -/
def execNegS (fs fd : RegNum) (s : State) : Result :=
  mapOnly "neg.s" (done (s.putSingle fd (Fmt.single.negBits (s.f fs).toNat)))

/-- `neg.d` (R274). -/
def execNegD (fs fd : RegNum) (s : State) : Result :=
  mapOnly "neg.d" (withDoubles [fs, fd] s (s.putDouble fd (Fmt.double.negBits (s.d fs).toNat)))

/-- `movz.s` (R279): `rt` is a general register. -/
def execMovzS (rt fs fd : RegNum) (s : State) : Result :=
  mapOnly "movz.s" (done (if s.x rt = 0#32 then s.setF fd (s.f fs) else s))

/-- `movz.d` (R279). -/
def execMovzD (rt fs fd : RegNum) (s : State) : Result :=
  mapOnly "movz.d" (withDoubles [fs, fd] s (if s.x rt = 0#32 then s.setD fd (s.d fs) else s))

/-- `movn.s` (R280): `rt` is a general register. -/
def execMovnS (rt fs fd : RegNum) (s : State) : Result :=
  mapOnly "movn.s" (done (if s.x rt ≠ 0#32 then s.setF fd (s.f fs) else s))

/-- `movn.d` (R280). -/
def execMovnD (rt fs fd : RegNum) (s : State) : Result :=
  mapOnly "movn.d" (withDoubles [fs, fd] s (if s.x rt ≠ 0#32 then s.setD fd (s.d fs) else s))

end Sys2Proof.Machine
end

