-- ==== Sys2Proof/Machine/Flags.lean ====
section
/-! DEFINITION. Everything an instruction decides about a result: signed overflow (spec/40_core_alu.md R139), the integer
comparisons (R138), the floating-point relation and the condition flag `fpcond` (spec/44_arith_fp.md R203, spec/47_opmap_fp.md
R297). There are no integer flags (spec/10_state.md R33). -/

namespace Sys2Proof.Machine

/-! ## Overflow (R139) -/

/-- An exact integer lies outside -2^31 .. 2^31 - 1. -/
def outOfRange (n : Int) : Bool := decide (n < -2 ^ 31) || decide (n > 2 ^ 31 - 1)

/-- The exact signed sum does not fit 32 bits (R139). -/
def addOverflows (a b : Word) : Bool := outOfRange (a.toInt + b.toInt)

/-- The exact signed difference does not fit 32 bits (R139). -/
def subOverflows (a b : Word) : Bool := outOfRange (a.toInt - b.toInt)

/-! ## Comparisons (R138) -/

/-- 1 or 0 in a full register (R138). -/
def truth (b : Bool) : Word := if b then 1#32 else 0#32

/-- Two's-complement less than (R130). -/
def lessSigned (a b : Word) : Bool := decide (a.toInt < b.toInt)

/-- Unsigned less than (R133). -/
def lessUnsigned (a b : Word) : Bool := decide (a.toNat < b.toNat)

/-! ## The floating-point relation (R297) -/

/-- Exactly one of four holds (R297). -/
inductive FpRelation where
  | less
  | equal
  | greater
  | unordered
  deriving DecidableEq, Repr

/-- The relation of two integers. -/
def relationOf (m n : Int) : FpRelation := if m < n then .less else if m = n then .equal else .greater

/-- Compare two values of one format (R203, R297): -∞ < every finite < +∞, -0 = +0, a NaN is unordered. -/
def compareFp : FpVal → FpVal → FpRelation
  | .nan, _ => .unordered
  | _, .nan => .unordered
  | .inf a, .inf b => relationOf (signed a 1) (signed b 1)
  | .inf a, .fin _ _ => relationOf (signed a 1) 0
  | .fin _ _, .inf b => relationOf 0 (signed b 1)
  | .fin a m, .fin b n => relationOf (signed a m) (signed b n)

/-- `fpcond` under a 4-bit condition (R297): bit 2 asks for less, bit 1 for equal, bit 0 for unordered. -/
def fpCondition (cccc : BitVec 4) (r : FpRelation) : Bool :=
  match r with
  | .less => cccc.getLsbD 2
  | .equal => cccc.getLsbD 1
  | .unordered => cccc.getLsbD 0
  | .greater => false

end Sys2Proof.Machine
end

