-- ==== Sys2Proof/Machine/FpCompare.lean ====
section
/-! DEFINITION. Floating-point compares (spec/44_arith_fp.md R197 to R203, spec/47_opmap_fp.md R284 to R297). `fs` is the left operand,
`ft` the right; the four-bit condition of each is the low half of its funct (R297). -/

namespace Sys2Proof.Machine

/-- `fpcond` after a compare that found a relation (R203, R297): under `FP_ARITH = opaque` only compares on values that are
not NaN are the same (R188), so one with a NaN takes a draw. -/
def State.putCond (s : State) (cccc : BitVec 4) (r : FpRelation) : State :=
  match Config.fpArith with
  | .ieeeRne => s.setFpcond (fpCondition cccc r)
  | .opaqueResults =>
    if r = .unordered then (s.setFpcond (Config.freeBit s.draws)).drawn 1 else s.setFpcond (fpCondition cccc r)

/-- A compare of two singles under a condition (R203, R297). -/
def compareSingle (cccc : BitVec 4) (ft fs : RegNum) (s : State) : Result :=
  done (s.putCond cccc (compareFp (single (s.f fs)) (single (s.f ft))))

/-- A compare of two doubles under a condition (R203, R297); odd register numbers are refused (R32). -/
def compareDouble (cccc : BitVec 4) (ft fs : RegNum) (s : State) : Result :=
  complete s ((evenOnly [ft, fs]).map fun _ =>
    s.putCond cccc (compareFp (double (s.d fs)) (double (s.d ft))))

/-- `c.eq.s` (R197). -/
def execCEqS (ft fs : RegNum) (s : State) : Result := compareSingle 0b0010 ft fs s

/-- `c.eq.d` (R200). -/
def execCEqD (ft fs : RegNum) (s : State) : Result := compareDouble 0b0010 ft fs s

/-- `c.lt.s` (R198). -/
def execCLtS (ft fs : RegNum) (s : State) : Result := compareSingle 0b1100 ft fs s

/-- `c.lt.d` (R201). -/
def execCLtD (ft fs : RegNum) (s : State) : Result := compareDouble 0b1100 ft fs s

/-- `c.le.s` (R199). -/
def execCLeS (ft fs : RegNum) (s : State) : Result := compareSingle 0b1110 ft fs s

/-- `c.le.d` (R202). -/
def execCLeD (ft fs : RegNum) (s : State) : Result := compareDouble 0b1110 ft fs s

/-- `c.f.s` (R284). -/
def execCFS (ft fs : RegNum) (s : State) : Result := mapOnly "c.f.s" (compareSingle 0b0000 ft fs s)

/-- `c.f.d` (R284). -/
def execCFD (ft fs : RegNum) (s : State) : Result := mapOnly "c.f.d" (compareDouble 0b0000 ft fs s)

/-- `c.un.s` (R285). -/
def execCUnS (ft fs : RegNum) (s : State) : Result := mapOnly "c.un.s" (compareSingle 0b0001 ft fs s)

/-- `c.un.d` (R285). -/
def execCUnD (ft fs : RegNum) (s : State) : Result := mapOnly "c.un.d" (compareDouble 0b0001 ft fs s)

/-- `c.ueq.s` (R286). -/
def execCUeqS (ft fs : RegNum) (s : State) : Result := mapOnly "c.ueq.s" (compareSingle 0b0011 ft fs s)

/-- `c.ueq.d` (R286). -/
def execCUeqD (ft fs : RegNum) (s : State) : Result := mapOnly "c.ueq.d" (compareDouble 0b0011 ft fs s)

/-- `c.olt.s` (R287). -/
def execCOltS (ft fs : RegNum) (s : State) : Result := mapOnly "c.olt.s" (compareSingle 0b0100 ft fs s)

/-- `c.olt.d` (R287). -/
def execCOltD (ft fs : RegNum) (s : State) : Result := mapOnly "c.olt.d" (compareDouble 0b0100 ft fs s)

/-- `c.ult.s` (R288). -/
def execCUltS (ft fs : RegNum) (s : State) : Result := mapOnly "c.ult.s" (compareSingle 0b0101 ft fs s)

/-- `c.ult.d` (R288). -/
def execCUltD (ft fs : RegNum) (s : State) : Result := mapOnly "c.ult.d" (compareDouble 0b0101 ft fs s)

/-- `c.ole.s` (R289). -/
def execCOleS (ft fs : RegNum) (s : State) : Result := mapOnly "c.ole.s" (compareSingle 0b0110 ft fs s)

/-- `c.ole.d` (R289). -/
def execCOleD (ft fs : RegNum) (s : State) : Result := mapOnly "c.ole.d" (compareDouble 0b0110 ft fs s)

/-- `c.ule.s` (R290). -/
def execCUleS (ft fs : RegNum) (s : State) : Result := mapOnly "c.ule.s" (compareSingle 0b0111 ft fs s)

/-- `c.ule.d` (R290). -/
def execCUleD (ft fs : RegNum) (s : State) : Result := mapOnly "c.ule.d" (compareDouble 0b0111 ft fs s)

/-- `c.sf.s` (R291). -/
def execCSfS (ft fs : RegNum) (s : State) : Result := mapOnly "c.sf.s" (compareSingle 0b1000 ft fs s)

/-- `c.sf.d` (R291). -/
def execCSfD (ft fs : RegNum) (s : State) : Result := mapOnly "c.sf.d" (compareDouble 0b1000 ft fs s)

/-- `c.ngle.s` (R292). -/
def execCNgleS (ft fs : RegNum) (s : State) : Result := mapOnly "c.ngle.s" (compareSingle 0b1001 ft fs s)

/-- `c.ngle.d` (R292). -/
def execCNgleD (ft fs : RegNum) (s : State) : Result := mapOnly "c.ngle.d" (compareDouble 0b1001 ft fs s)

/-- `c.seq.s` (R293). -/
def execCSeqS (ft fs : RegNum) (s : State) : Result := mapOnly "c.seq.s" (compareSingle 0b1010 ft fs s)

/-- `c.seq.d` (R293). -/
def execCSeqD (ft fs : RegNum) (s : State) : Result := mapOnly "c.seq.d" (compareDouble 0b1010 ft fs s)

/-- `c.ngl.s` (R294). -/
def execCNglS (ft fs : RegNum) (s : State) : Result := mapOnly "c.ngl.s" (compareSingle 0b1011 ft fs s)

/-- `c.ngl.d` (R294). -/
def execCNglD (ft fs : RegNum) (s : State) : Result := mapOnly "c.ngl.d" (compareDouble 0b1011 ft fs s)

/-- `c.nge.s` (R295). -/
def execCNgeS (ft fs : RegNum) (s : State) : Result := mapOnly "c.nge.s" (compareSingle 0b1101 ft fs s)

/-- `c.nge.d` (R295). -/
def execCNgeD (ft fs : RegNum) (s : State) : Result := mapOnly "c.nge.d" (compareDouble 0b1101 ft fs s)

/-- `c.ngt.s` (R296). -/
def execCNgtS (ft fs : RegNum) (s : State) : Result := mapOnly "c.ngt.s" (compareSingle 0b1111 ft fs s)

/-- `c.ngt.d` (R296). -/
def execCNgtD (ft fs : RegNum) (s : State) : Result := mapOnly "c.ngt.d" (compareDouble 0b1111 ft fs s)

end Sys2Proof.Machine
end

