-- ==== Sys2Proof/Machine/FpConvert.lean ====
section
/-! DEFINITION. Floating-point conversions (spec/47_opmap_fp.md R275 to R278, R281 to R283). -/

namespace Sys2Proof.Machine

/-- `round.w.s` (R275). -/
def execRoundWS (fs fd : RegNum) (s : State) : Result :=
  mapOnly "round.w.s" (done (s.putInt fd (Fmt.single.toInt32 .nearestEven (single (s.f fs)))))

/-- `round.w.d` (R275). -/
def execRoundWD (fs fd : RegNum) (s : State) : Result :=
  mapOnly "round.w.d" (withDoubles [fs] s (s.putInt fd (Fmt.double.toInt32 .nearestEven (double (s.d fs)))))

/-- `trunc.w.s` (R276). -/
def execTruncWS (fs fd : RegNum) (s : State) : Result :=
  mapOnly "trunc.w.s" (done (s.putInt fd (Fmt.single.toInt32 .towardZero (single (s.f fs)))))

/-- `trunc.w.d` (R276). -/
def execTruncWD (fs fd : RegNum) (s : State) : Result :=
  mapOnly "trunc.w.d" (withDoubles [fs] s (s.putInt fd (Fmt.double.toInt32 .towardZero (double (s.d fs)))))

/-- `ceil.w.s` (R277). -/
def execCeilWS (fs fd : RegNum) (s : State) : Result :=
  mapOnly "ceil.w.s" (done (s.putInt fd (Fmt.single.toInt32 .towardPlus (single (s.f fs)))))

/-- `ceil.w.d` (R277). -/
def execCeilWD (fs fd : RegNum) (s : State) : Result :=
  mapOnly "ceil.w.d" (withDoubles [fs] s (s.putInt fd (Fmt.double.toInt32 .towardPlus (double (s.d fs)))))

/-- `floor.w.s` (R278). -/
def execFloorWS (fs fd : RegNum) (s : State) : Result :=
  mapOnly "floor.w.s" (done (s.putInt fd (Fmt.single.toInt32 .towardMinus (single (s.f fs)))))

/-- `floor.w.d` (R278). -/
def execFloorWD (fs fd : RegNum) (s : State) : Result :=
  mapOnly "floor.w.d" (withDoubles [fs] s (s.putInt fd (Fmt.double.toInt32 .towardMinus (double (s.d fs)))))

/-- `cvt.w.s` (R283): the fixed rounding mode is to nearest even. -/
def execCvtWS (fs fd : RegNum) (s : State) : Result :=
  mapOnly "cvt.w.s" (done (s.putInt fd (Fmt.single.toInt32 .nearestEven (single (s.f fs)))))

/-- `cvt.w.d` (R283): the fixed rounding mode is to nearest even. -/
def execCvtWD (fs fd : RegNum) (s : State) : Result :=
  mapOnly "cvt.w.d" (withDoubles [fs] s (s.putInt fd (Fmt.double.toInt32 .nearestEven (double (s.d fs)))))

/-- `cvt.s.d` (R281). -/
def execCvtSD (fs fd : RegNum) (s : State) : Result :=
  mapOnly "cvt.s.d" (withDoubles [fs] s (s.putSingle fd (doubleToSingle (double (s.d fs)))))

/-- `cvt.d.s` (R282). -/
def execCvtDS (fs fd : RegNum) (s : State) : Result :=
  mapOnly "cvt.d.s" (withDoubles [fd] s (s.putDouble fd (singleToDouble (single (s.f fs)))))

/-- `cvt.s.s` (R281): refused under every value of `MAP_ONLY`. -/
def execCvtSS (_fs _fd : RegNum) (_s : State) : Result := .refused .convertToSameFormat

/-- `cvt.d.d` (R282): refused under every value of `MAP_ONLY`. -/
def execCvtDD (_fs _fd : RegNum) (_s : State) : Result := .refused .convertToSameFormat

end Sys2Proof.Machine
end

