-- ==== Sys2Proof/Machine/IntAlu.lean ====
section
/-! DEFINITION. Integer arithmetic, logic, comparison, shifts and conditional moves (spec/40_core_alu.md R120 to R139,
spec/43_arith_int.md R177, spec/46_opmap_integer.md R233, R248 to R250, R252, R253, R259). -/

namespace Sys2Proof.Machine

/-- `add` (R120). -/
def execAdd (rs rt rd : RegNum) (s : State) : Result :=
  if addOverflows (s.x rs) (s.x rt) then raise .ov (instrWord (.add rs rt rd) s) s
  else done (s.setX rd (s.x rs + s.x rt))

/-- `addi` (R121). -/
def execAddi (rs rt : RegNum) (imm : Half) (s : State) : Result :=
  if addOverflows (s.x rs) (signExtImm imm) then raise .ov (instrWord (.addi rs rt imm) s) s
  else done (s.setX rt (s.x rs + signExtImm imm))

/-- `addiu` (R122): the immediate is sign-extended; no exception. -/
def execAddiu (rs rt : RegNum) (imm : Half) (s : State) : Result :=
  done (s.setX rt (s.x rs + signExtImm imm))

/-- `addu` (R123). -/
def execAddu (rs rt rd : RegNum) (s : State) : Result := done (s.setX rd (s.x rs + s.x rt))

/-- `and` (R124). -/
def execAnd (rs rt rd : RegNum) (s : State) : Result := done (s.setX rd (s.x rs &&& s.x rt))

/-- `andi` (R125): the immediate is zero-extended. -/
def execAndi (rs rt : RegNum) (imm : Half) (s : State) : Result :=
  done (s.setX rt (s.x rs &&& zeroExtImm imm))

/-- `lui` (R126). -/
def execLui (rt : RegNum) (imm : Half) (s : State) : Result := done (s.setX rt (upperImm imm))

/-- `nor` (R127). -/
def execNor (rs rt rd : RegNum) (s : State) : Result := done (s.setX rd (~~~(s.x rs ||| s.x rt)))

/-- `or` (R128). -/
def execOr (rs rt rd : RegNum) (s : State) : Result := done (s.setX rd (s.x rs ||| s.x rt))

/-- `ori` (R129). -/
def execOri (rs rt : RegNum) (imm : Half) (s : State) : Result :=
  done (s.setX rt (s.x rs ||| zeroExtImm imm))

/-- `slt` (R130). -/
def execSlt (rs rt rd : RegNum) (s : State) : Result :=
  done (s.setX rd (truth (lessSigned (s.x rs) (s.x rt))))

/-- `slti` (R131). -/
def execSlti (rs rt : RegNum) (imm : Half) (s : State) : Result :=
  done (s.setX rt (truth (lessSigned (s.x rs) (signExtImm imm))))

/-- `sltiu` (R132): the immediate is sign-extended, then compared unsigned. -/
def execSltiu (rs rt : RegNum) (imm : Half) (s : State) : Result :=
  done (s.setX rt (truth (lessUnsigned (s.x rs) (signExtImm imm))))

/-- `sltu` (R133). -/
def execSltu (rs rt rd : RegNum) (s : State) : Result :=
  done (s.setX rd (truth (lessUnsigned (s.x rs) (s.x rt))))

/-- `sll` (R134). -/
def execSll (rt rd : RegNum) (shamt : BitVec 5) (s : State) : Result :=
  done (s.setX rd (s.x rt <<< shamt.toNat))

/-- `srl` (R135): zeros shifted in. -/
def execSrl (rt rd : RegNum) (shamt : BitVec 5) (s : State) : Result :=
  done (s.setX rd (s.x rt >>> shamt.toNat))

/-- `sub` (R136). -/
def execSub (rs rt rd : RegNum) (s : State) : Result :=
  if subOverflows (s.x rs) (s.x rt) then raise .ov (instrWord (.sub rs rt rd) s) s
  else done (s.setX rd (s.x rs - s.x rt))

/-- `subu` (R137). -/
def execSubu (rs rt rd : RegNum) (s : State) : Result := done (s.setX rd (s.x rs - s.x rt))

/-- `sra` (R177): the sign bit shifted in. -/
def execSra (rt rd : RegNum) (shamt : BitVec 5) (s : State) : Result :=
  done (s.setX rd ((s.x rt).sshiftRight shamt.toNat))

/-- `xori` (R233). -/
def execXori (rs rt : RegNum) (imm : Half) (s : State) : Result :=
  mapOnly "xori" (done (s.setX rt (s.x rs ^^^ zeroExtImm imm)))

/-- `sllv` (R248). -/
def execSllv (rs rt rd : RegNum) (s : State) : Result :=
  mapOnly "sllv" (done (s.setX rd (s.x rt <<< shiftCount (s.x rs))))

/-- `srlv` (R249). -/
def execSrlv (rs rt rd : RegNum) (s : State) : Result :=
  mapOnly "srlv" (done (s.setX rd (s.x rt >>> shiftCount (s.x rs))))

/-- `srav` (R250). -/
def execSrav (rs rt rd : RegNum) (s : State) : Result :=
  mapOnly "srav" (done (s.setX rd ((s.x rt).sshiftRight (shiftCount (s.x rs)))))

/-- `movz` (R252): `x[rd]` is written only when `x[rt]` is 0. -/
def execMovz (rs rt rd : RegNum) (s : State) : Result :=
  mapOnly "movz" (done (if s.x rt = 0#32 then s.setX rd (s.x rs) else s))

/-- `movn` (R253): `x[rd]` is written only when `x[rt]` is not 0. -/
def execMovn (rs rt rd : RegNum) (s : State) : Result :=
  mapOnly "movn" (done (if s.x rt ≠ 0#32 then s.setX rd (s.x rs) else s))

/-- `xor` (R259). -/
def execXor (rs rt rd : RegNum) (s : State) : Result :=
  mapOnly "xor" (done (s.setX rd (s.x rs ^^^ s.x rt)))

end Sys2Proof.Machine
end

