-- ==== Sys2Proof/Machine/LoadStore.lean ====
section
/-! DEFINITION. Loads and stores (spec/42_core_memory.md R150 to R160, spec/44_arith_fp.md R210 to R213,
spec/46_opmap_integer.md R234 to R241). -/

namespace Sys2Proof.Machine

/-- `lbu` (R152). -/
def execLbu (rs rt : RegNum) (imm : Half) (s : State) : Result :=
  complete s ((loadByte s (s.ea rs imm)).map fun v => s.setX rt (v.setWidth 32))

/-- `lhu` (R153). -/
def execLhu (rs rt : RegNum) (imm : Half) (s : State) : Result :=
  complete s ((loadHalf s (s.ea rs imm)).map fun v => s.setX rt (v.setWidth 32))

/-- `lw` (R154). -/
def execLw (rs rt : RegNum) (imm : Half) (s : State) : Result :=
  complete s ((loadWord s (s.ea rs imm)).map fun v => s.setX rt v)

/-- `ll` (R155): the load of `lw`, and the reservation. -/
def execLl (rs rt : RegNum) (imm : Half) (s : State) : Result :=
  complete s ((loadWord s (s.ea rs imm)).map fun v => (s.setX rt v).reserve (s.ea rs imm))

/-- `sb` (R156). -/
def execSb (rs rt : RegNum) (imm : Half) (s : State) : Result :=
  complete s (storeByte s (s.ea rs imm) ((s.x rt).extractLsb' 0 8))

/-- `sh` (R157). -/
def execSh (rs rt : RegNum) (imm : Half) (s : State) : Result :=
  complete s (storeHalf s (s.ea rs imm) ((s.x rt).extractLsb' 0 16))

/-- `sw` (R158): it does not clear the reservation (R67). -/
def execSw (rs rt : RegNum) (imm : Half) (s : State) : Result :=
  complete s (storeWord s (s.ea rs imm) (s.x rt))

/-- `sc` once its checks have passed (R159): it stores and writes 1 when the reservation is held and the draw does not
fail it, else writes 0; `llbit` is cleared either way. The draw is taken only while a reservation is held. -/
def storeConditional (rt : RegNum) (a : Word) (s : State) : State :=
  if s.llbit then
    if Config.scMayFail && Config.freeBit s.draws then ((s.setX rt 0#32).clearLink).drawn 1
    else ((((s.setMem (s.mem.writeWord a (s.x rt))).setX rt 1#32).clearLink).drawn 1)
  else (s.setX rt 0#32).clearLink

/-- The address check of `sc` (R159). -/
def sameReservation (s : State) (a : Word) : Except Stop Unit :=
  if s.llbit && s.lladdr != a then .error (.refuse .scAddressMismatch) else .ok ()

/-- `sc` (R159). -/
def execSc (rs rt : RegNum) (imm : Half) (s : State) : Result :=
  complete s ((checkStore s (s.ea rs imm) 4).bind fun _ =>
    (sameReservation s (s.ea rs imm)).map fun _ => storeConditional rt (s.ea rs imm) s)

/-- `lwc1` (R210). -/
def execLwc1 (rs rt : RegNum) (imm : Half) (s : State) : Result :=
  complete s ((loadWord s (s.ea rs imm)).map fun v => s.setF rt v)

/-- `ldc1` (R211): alignment, then the register number, then the mapping. -/
def execLdc1 (rs rt : RegNum) (imm : Half) (s : State) : Result :=
  complete s ((alignedLoad (s.ea rs imm) 8).bind fun _ => (evenOnly [rt]).bind fun _ =>
    (mappedLoad s (s.ea rs imm) 8).map fun _ => s.setD rt (s.mem.readDouble (s.ea rs imm)))

/-- `swc1` (R212). -/
def execSwc1 (rs rt : RegNum) (imm : Half) (s : State) : Result :=
  complete s (storeWord s (s.ea rs imm) (s.f rt))

/-- `sdc1` (R213): alignment, then the register number, then the mapping. -/
def execSdc1 (rs rt : RegNum) (imm : Half) (s : State) : Result :=
  complete s ((alignedStore (s.ea rs imm) 8).bind fun _ => (evenOnly [rt]).bind fun _ =>
    (mappedStore s (s.ea rs imm) 8).map fun _ => s.setMem (s.mem.writeDouble (s.ea rs imm) (s.d rt)))

/-- `lb` (R234). -/
def execLb (rs rt : RegNum) (imm : Half) (s : State) : Result :=
  mapOnly "lb" (complete s ((loadByte s (s.ea rs imm)).map fun v => s.setX rt (v.signExtend 32)))

/-- `lh` (R235). -/
def execLh (rs rt : RegNum) (imm : Half) (s : State) : Result :=
  mapOnly "lh" (complete s ((loadHalf s (s.ea rs imm)).map fun v => s.setX rt (v.signExtend 32)))

/-- `lwl`'s merge (R238): bytes `a`..3 of the word above the low `a` bytes of the register. -/
def mergeLwl (a : Nat) (w old : Word) : Word := (w <<< (8 * a)) ||| (old &&& (BitVec.ofNat 32 (2 ^ (8 * a) - 1)))

/-- `lwr`'s merge (R239): the high `3 - a` bytes of the register above bytes 0..`a` of the word. -/
def mergeLwr (a : Nat) (w old : Word) : Word :=
  (old &&& ~~~(BitVec.ofNat 32 (2 ^ (8 * (a + 1)) - 1))) ||| (w >>> (8 * (3 - a)))

/-- `swl`'s merge (R240): the high `4 - a` bytes of the register into bytes `a`..3 of the word. -/
def mergeSwl (a : Nat) (w reg : Word) : Word := (w &&& ~~~(0xFFFFFFFF#32 >>> (8 * a))) ||| (reg >>> (8 * a))

/-- `swr`'s merge (R241): the low `a + 1` bytes of the register into bytes 0..`a` of the word. -/
def mergeSwr (a : Nat) (w reg : Word) : Word :=
  (reg <<< (8 * (3 - a))) ||| (w &&& (BitVec.ofNat 32 (2 ^ (8 * (3 - a)) - 1)))

/-- A load of part of the aligned word that contains `addr` (R236). -/
def loadPart (merge : Nat → Word → Word → Word) (rt : RegNum) (addr : Word) (s : State) : Result :=
  complete s ((loadWord s (wordBase addr)).map fun w => s.setX rt (merge (byteInWord addr) w (s.x rt)))

/-- A store to part of the aligned word that contains `addr` (R236). -/
def storePart (merge : Nat → Word → Word → Word) (rt : RegNum) (addr : Word) (s : State) : Result :=
  complete s ((loadWord s (wordBase addr)).bind fun w =>
    storeWord s (wordBase addr) (merge (byteInWord addr) w (s.x rt)))

/-- `lwl` (R238). -/
def execLwl (rs rt : RegNum) (imm : Half) (s : State) : Result :=
  mapOnly "lwl" (loadPart mergeLwl rt (s.ea rs imm) s)

/-- `lwr` (R239). -/
def execLwr (rs rt : RegNum) (imm : Half) (s : State) : Result :=
  mapOnly "lwr" (loadPart mergeLwr rt (s.ea rs imm) s)

/-- `swl` (R240). -/
def execSwl (rs rt : RegNum) (imm : Half) (s : State) : Result :=
  mapOnly "swl" (storePart mergeSwl rt (s.ea rs imm) s)

/-- `swr` (R241). -/
def execSwr (rs rt : RegNum) (imm : Half) (s : State) : Result :=
  mapOnly "swr" (storePart mergeSwr rt (s.ea rs imm) s)

end Sys2Proof.Machine
end

