-- ==== Sys2Proof/Machine/MulDiv.lean ====
section
/-! DEFINITION. Multiply, divide and the Hi/Lo moves (spec/43_arith_int.md R170 to R175, R178, spec/46_opmap_integer.md R257,
R258). -/

namespace Sys2Proof.Machine

/-- A 64-bit product into `{hi, lo}` (R172). -/
def State.setProduct (s : State) (p : Double) : State := s.setHiLo (p.extractLsb' 32 32) (p.extractLsb' 0 32)

/-- A division by zero leaves `lo` and `hi` as two fresh draws and raises nothing (R178). -/
def State.divByZero (s : State) : State :=
  match Config.divZero with
  | .draws => (s.setHiLo (Config.freeWord (s.draws + 1)) (Config.freeWord s.draws)).drawn 2

/-- `div` (R170): the quotient rounds toward zero, the remainder has the sign of the dividend. -/
def execDiv (rs rt : RegNum) (s : State) : Result :=
  done (if s.x rt = 0#32 then s.divByZero
    else s.setHiLo (BitVec.ofInt 32 ((s.x rs).toInt.tmod (s.x rt).toInt))
      (BitVec.ofInt 32 ((s.x rs).toInt.tdiv (s.x rt).toInt)))

/-- `divu` (R171). -/
def execDivu (rs rt : RegNum) (s : State) : Result :=
  done (if s.x rt = 0#32 then s.divByZero
    else s.setHiLo (BitVec.ofNat 32 ((s.x rs).toNat % (s.x rt).toNat))
      (BitVec.ofNat 32 ((s.x rs).toNat / (s.x rt).toNat)))

/-- `mult` (R172). -/
def execMult (rs rt : RegNum) (s : State) : Result :=
  done (s.setProduct (BitVec.ofInt 64 ((s.x rs).toInt * (s.x rt).toInt)))

/-- `multu` (R173). -/
def execMultu (rs rt : RegNum) (s : State) : Result :=
  done (s.setProduct (BitVec.ofNat 64 ((s.x rs).toNat * (s.x rt).toNat)))

/-- `mfhi` (R174). -/
def execMfhi (rd : RegNum) (s : State) : Result := done (s.setX rd s.hi)

/-- `mflo` (R175). -/
def execMflo (rd : RegNum) (s : State) : Result := done (s.setX rd s.lo)

/-- `mthi` (R257). -/
def execMthi (rs : RegNum) (s : State) : Result := mapOnly "mthi" (done (s.setHi (s.x rs)))

/-- `mtlo` (R258). -/
def execMtlo (rs : RegNum) (s : State) : Result := mapOnly "mtlo" (done (s.setLo (s.x rs)))

end Sys2Proof.Machine
end

