-- ==== Sys2Proof/Machine/System.lean ====
section
/-! DEFINITION. The control-register move, the system instructions, the conditional traps, hints, and the instructions of units the
machine does not have (spec/43_arith_int.md R176, spec/46_opmap_integer.md R242 to R247, R254 to R256, R260 to R266). -/

namespace Sys2Proof.Machine

/-- `CR[n]` (R34, R37): Status, Cause, or a register the spec does not describe. -/
def controlRegister (n : RegNum) (s : State) : Except Stop Word :=
  if n = Config.crStatusNum then .ok s.status
  else if n = Config.crCauseNum then .ok s.cause
  else .error (.refuse .unknownControlRegister)

/-- `mfc0` (R176): CpU in user mode. -/
def execMfc0 (rt rd : RegNum) (s : State) : Result :=
  if s.kernelMode then complete s ((controlRegister rd s).map fun v => s.setX rt v)
  else raise .cpU (instrWord (.mfc0 rt rd) s) s

/-- `syscall` (R254): always Sys, under every value of `MAP_ONLY` (R230 (c)). -/
def execSyscall (code : BitVec 20) (s : State) : Result := raise .sys (instrWord (.syscall code) s) s

/-- `break` (R255): always Bp, under every value of `MAP_ONLY` (R230 (c)). -/
def execBrk (code : BitVec 20) (s : State) : Result := raise .bp (instrWord (.brk code) s) s

/-- `sync` (R256): memory is sequentially consistent with one agent, so there is nothing to order. -/
def execSync (s : State) : Result := mapOnly "sync" (done s)

/-- `pref` (R245): no architectural effect and no exception, whatever its address. -/
def execPref (_rs _rt : RegNum) (_imm : Half) (s : State) : Result := mapOnly "pref" (done s)

/-- A conditional trap (R266): Tr when the condition holds, else nothing. -/
def trapIf (condition : Bool) (word : Word) (s : State) : Result :=
  if condition then raise .tr word s else done s

/-- `tge` (R260). -/
def execTge (rs rt : RegNum) (code : BitVec 10) (s : State) : Result :=
  mapOnly "tge" (trapIf (!lessSigned (s.x rs) (s.x rt)) (instrWord (.tge rs rt code) s) s)

/-- `tgeu` (R261). -/
def execTgeu (rs rt : RegNum) (code : BitVec 10) (s : State) : Result :=
  mapOnly "tgeu" (trapIf (!lessUnsigned (s.x rs) (s.x rt)) (instrWord (.tgeu rs rt code) s) s)

/-- `tlt` (R262). -/
def execTlt (rs rt : RegNum) (code : BitVec 10) (s : State) : Result :=
  mapOnly "tlt" (trapIf (lessSigned (s.x rs) (s.x rt)) (instrWord (.tlt rs rt code) s) s)

/-- `tltu` (R263). -/
def execTltu (rs rt : RegNum) (code : BitVec 10) (s : State) : Result :=
  mapOnly "tltu" (trapIf (lessUnsigned (s.x rs) (s.x rt)) (instrWord (.tltu rs rt code) s) s)

/-- `teq` (R264). -/
def execTeq (rs rt : RegNum) (code : BitVec 10) (s : State) : Result :=
  mapOnly "teq" (trapIf (s.x rs == s.x rt) (instrWord (.teq rs rt code) s) s)

/-- `tne` (R265). -/
def execTne (rs rt : RegNum) (code : BitVec 10) (s : State) : Result :=
  mapOnly "tne" (trapIf (s.x rs != s.x rt) (instrWord (.tne rs rt code) s) s)

/-- `cache` (R242): refused under every value of `MAP_ONLY`; the spec describes no cache. -/
def execCache (_rs _rt : RegNum) (_imm : Half) (_s : State) : Result := .refused .noCache

/-- `lwc2` (R243): refused; there is no coprocessor 2. -/
def execLwc2 (_rs _rt : RegNum) (_imm : Half) (_s : State) : Result := .refused .noCoprocessor2

/-- `ldc2` (R244): refused; there is no coprocessor 2. -/
def execLdc2 (_rs _rt : RegNum) (_imm : Half) (_s : State) : Result := .refused .noCoprocessor2

/-- `swc2` (R246): refused; there is no coprocessor 2. -/
def execSwc2 (_rs _rt : RegNum) (_imm : Half) (_s : State) : Result := .refused .noCoprocessor2

/-- `sdc2` (R247): refused; there is no coprocessor 2. -/
def execSdc2 (_rs _rt : RegNum) (_imm : Half) (_s : State) : Result := .refused .noCoprocessor2

end Sys2Proof.Machine
end

