-- ==== Sys2Proof/Machine/Dispatch.lean ====
section
/-! DEFINITION. One arm for each constructor of Instr: a direct call of its meaning. -/

namespace Sys2Proof.Machine

def exec (i : Instr) (s : State) : Host.Outcome State Fault Refusal :=
  match i with
  | .add rs rt rd => Sys2Proof.Machine.execAdd rs rt rd s
  | .addi rs rt imm => Sys2Proof.Machine.execAddi rs rt imm s
  | .addiu rs rt imm => Sys2Proof.Machine.execAddiu rs rt imm s
  | .addu rs rt rd => Sys2Proof.Machine.execAddu rs rt rd s
  | .and rs rt rd => Sys2Proof.Machine.execAnd rs rt rd s
  | .andi rs rt imm => Sys2Proof.Machine.execAndi rs rt imm s
  | .beq rs rt imm => Sys2Proof.Machine.execBeq rs rt imm s
  | .bne rs rt imm => Sys2Proof.Machine.execBne rs rt imm s
  | .j addr => Sys2Proof.Machine.execJ addr s
  | .jal addr => Sys2Proof.Machine.execJal addr s
  | .jr rs => Sys2Proof.Machine.execJr rs s
  | .lbu rs rt imm => Sys2Proof.Machine.execLbu rs rt imm s
  | .lhu rs rt imm => Sys2Proof.Machine.execLhu rs rt imm s
  | .ll rs rt imm => Sys2Proof.Machine.execLl rs rt imm s
  | .lui rt imm => Sys2Proof.Machine.execLui rt imm s
  | .lw rs rt imm => Sys2Proof.Machine.execLw rs rt imm s
  | .nor rs rt rd => Sys2Proof.Machine.execNor rs rt rd s
  | .or rs rt rd => Sys2Proof.Machine.execOr rs rt rd s
  | .ori rs rt imm => Sys2Proof.Machine.execOri rs rt imm s
  | .slt rs rt rd => Sys2Proof.Machine.execSlt rs rt rd s
  | .slti rs rt imm => Sys2Proof.Machine.execSlti rs rt imm s
  | .sltiu rs rt imm => Sys2Proof.Machine.execSltiu rs rt imm s
  | .sltu rs rt rd => Sys2Proof.Machine.execSltu rs rt rd s
  | .sll rt rd shamt => Sys2Proof.Machine.execSll rt rd shamt s
  | .srl rt rd shamt => Sys2Proof.Machine.execSrl rt rd shamt s
  | .sb rs rt imm => Sys2Proof.Machine.execSb rs rt imm s
  | .sc rs rt imm => Sys2Proof.Machine.execSc rs rt imm s
  | .sh rs rt imm => Sys2Proof.Machine.execSh rs rt imm s
  | .sw rs rt imm => Sys2Proof.Machine.execSw rs rt imm s
  | .sub rs rt rd => Sys2Proof.Machine.execSub rs rt rd s
  | .subu rs rt rd => Sys2Proof.Machine.execSubu rs rt rd s
  | .bc1t imm => Sys2Proof.Machine.execBc1t imm s
  | .bc1f imm => Sys2Proof.Machine.execBc1f imm s
  | .div rs rt => Sys2Proof.Machine.execDiv rs rt s
  | .divu rs rt => Sys2Proof.Machine.execDivu rs rt s
  | .addS ft fs fd => Sys2Proof.Machine.execAddS ft fs fd s
  | .addD ft fs fd => Sys2Proof.Machine.execAddD ft fs fd s
  | .subS ft fs fd => Sys2Proof.Machine.execSubS ft fs fd s
  | .subD ft fs fd => Sys2Proof.Machine.execSubD ft fs fd s
  | .mulS ft fs fd => Sys2Proof.Machine.execMulS ft fs fd s
  | .mulD ft fs fd => Sys2Proof.Machine.execMulD ft fs fd s
  | .divS ft fs fd => Sys2Proof.Machine.execDivS ft fs fd s
  | .divD ft fs fd => Sys2Proof.Machine.execDivD ft fs fd s
  | .cEqS ft fs => Sys2Proof.Machine.execCEqS ft fs s
  | .cEqD ft fs => Sys2Proof.Machine.execCEqD ft fs s
  | .cLtS ft fs => Sys2Proof.Machine.execCLtS ft fs s
  | .cLtD ft fs => Sys2Proof.Machine.execCLtD ft fs s
  | .cLeS ft fs => Sys2Proof.Machine.execCLeS ft fs s
  | .cLeD ft fs => Sys2Proof.Machine.execCLeD ft fs s
  | .lwc1 rs rt imm => Sys2Proof.Machine.execLwc1 rs rt imm s
  | .ldc1 rs rt imm => Sys2Proof.Machine.execLdc1 rs rt imm s
  | .mfhi rd => Sys2Proof.Machine.execMfhi rd s
  | .mflo rd => Sys2Proof.Machine.execMflo rd s
  | .mfc0 rt rd => Sys2Proof.Machine.execMfc0 rt rd s
  | .mult rs rt => Sys2Proof.Machine.execMult rs rt s
  | .multu rs rt => Sys2Proof.Machine.execMultu rs rt s
  | .sra rt rd shamt => Sys2Proof.Machine.execSra rt rd shamt s
  | .swc1 rs rt imm => Sys2Proof.Machine.execSwc1 rs rt imm s
  | .sdc1 rs rt imm => Sys2Proof.Machine.execSdc1 rs rt imm s
  | .blez rs imm => Sys2Proof.Machine.execBlez rs imm s
  | .bgtz rs imm => Sys2Proof.Machine.execBgtz rs imm s
  | .xori rs rt imm => Sys2Proof.Machine.execXori rs rt imm s
  | .lb rs rt imm => Sys2Proof.Machine.execLb rs rt imm s
  | .lh rs rt imm => Sys2Proof.Machine.execLh rs rt imm s
  | .lwl rs rt imm => Sys2Proof.Machine.execLwl rs rt imm s
  | .lwr rs rt imm => Sys2Proof.Machine.execLwr rs rt imm s
  | .swl rs rt imm => Sys2Proof.Machine.execSwl rs rt imm s
  | .swr rs rt imm => Sys2Proof.Machine.execSwr rs rt imm s
  | .cache rs rt imm => Sys2Proof.Machine.execCache rs rt imm s
  | .lwc2 rs rt imm => Sys2Proof.Machine.execLwc2 rs rt imm s
  | .ldc2 rs rt imm => Sys2Proof.Machine.execLdc2 rs rt imm s
  | .pref rs rt imm => Sys2Proof.Machine.execPref rs rt imm s
  | .swc2 rs rt imm => Sys2Proof.Machine.execSwc2 rs rt imm s
  | .sdc2 rs rt imm => Sys2Proof.Machine.execSdc2 rs rt imm s
  | .sllv rs rt rd => Sys2Proof.Machine.execSllv rs rt rd s
  | .srlv rs rt rd => Sys2Proof.Machine.execSrlv rs rt rd s
  | .srav rs rt rd => Sys2Proof.Machine.execSrav rs rt rd s
  | .jalr rs rd => Sys2Proof.Machine.execJalr rs rd s
  | .movz rs rt rd => Sys2Proof.Machine.execMovz rs rt rd s
  | .movn rs rt rd => Sys2Proof.Machine.execMovn rs rt rd s
  | .syscall code => Sys2Proof.Machine.execSyscall code s
  | .brk code => Sys2Proof.Machine.execBrk code s
  | .sync => Sys2Proof.Machine.execSync s
  | .mthi rs => Sys2Proof.Machine.execMthi rs s
  | .mtlo rs => Sys2Proof.Machine.execMtlo rs s
  | .xor rs rt rd => Sys2Proof.Machine.execXor rs rt rd s
  | .tge rs rt code => Sys2Proof.Machine.execTge rs rt code s
  | .tgeu rs rt code => Sys2Proof.Machine.execTgeu rs rt code s
  | .tlt rs rt code => Sys2Proof.Machine.execTlt rs rt code s
  | .tltu rs rt code => Sys2Proof.Machine.execTltu rs rt code s
  | .teq rs rt code => Sys2Proof.Machine.execTeq rs rt code s
  | .tne rs rt code => Sys2Proof.Machine.execTne rs rt code s
  | .sqrtS fs fd => Sys2Proof.Machine.execSqrtS fs fd s
  | .sqrtD fs fd => Sys2Proof.Machine.execSqrtD fs fd s
  | .absS fs fd => Sys2Proof.Machine.execAbsS fs fd s
  | .absD fs fd => Sys2Proof.Machine.execAbsD fs fd s
  | .movS fs fd => Sys2Proof.Machine.execMovS fs fd s
  | .movD fs fd => Sys2Proof.Machine.execMovD fs fd s
  | .negS fs fd => Sys2Proof.Machine.execNegS fs fd s
  | .negD fs fd => Sys2Proof.Machine.execNegD fs fd s
  | .roundWS fs fd => Sys2Proof.Machine.execRoundWS fs fd s
  | .roundWD fs fd => Sys2Proof.Machine.execRoundWD fs fd s
  | .truncWS fs fd => Sys2Proof.Machine.execTruncWS fs fd s
  | .truncWD fs fd => Sys2Proof.Machine.execTruncWD fs fd s
  | .ceilWS fs fd => Sys2Proof.Machine.execCeilWS fs fd s
  | .ceilWD fs fd => Sys2Proof.Machine.execCeilWD fs fd s
  | .floorWS fs fd => Sys2Proof.Machine.execFloorWS fs fd s
  | .floorWD fs fd => Sys2Proof.Machine.execFloorWD fs fd s
  | .cvtSS fs fd => Sys2Proof.Machine.execCvtSS fs fd s
  | .cvtSD fs fd => Sys2Proof.Machine.execCvtSD fs fd s
  | .cvtDS fs fd => Sys2Proof.Machine.execCvtDS fs fd s
  | .cvtDD fs fd => Sys2Proof.Machine.execCvtDD fs fd s
  | .cvtWS fs fd => Sys2Proof.Machine.execCvtWS fs fd s
  | .cvtWD fs fd => Sys2Proof.Machine.execCvtWD fs fd s
  | .movzS rt fs fd => Sys2Proof.Machine.execMovzS rt fs fd s
  | .movzD rt fs fd => Sys2Proof.Machine.execMovzD rt fs fd s
  | .movnS rt fs fd => Sys2Proof.Machine.execMovnS rt fs fd s
  | .movnD rt fs fd => Sys2Proof.Machine.execMovnD rt fs fd s
  | .cFS ft fs => Sys2Proof.Machine.execCFS ft fs s
  | .cFD ft fs => Sys2Proof.Machine.execCFD ft fs s
  | .cUnS ft fs => Sys2Proof.Machine.execCUnS ft fs s
  | .cUnD ft fs => Sys2Proof.Machine.execCUnD ft fs s
  | .cUeqS ft fs => Sys2Proof.Machine.execCUeqS ft fs s
  | .cUeqD ft fs => Sys2Proof.Machine.execCUeqD ft fs s
  | .cOltS ft fs => Sys2Proof.Machine.execCOltS ft fs s
  | .cOltD ft fs => Sys2Proof.Machine.execCOltD ft fs s
  | .cUltS ft fs => Sys2Proof.Machine.execCUltS ft fs s
  | .cUltD ft fs => Sys2Proof.Machine.execCUltD ft fs s
  | .cOleS ft fs => Sys2Proof.Machine.execCOleS ft fs s
  | .cOleD ft fs => Sys2Proof.Machine.execCOleD ft fs s
  | .cUleS ft fs => Sys2Proof.Machine.execCUleS ft fs s
  | .cUleD ft fs => Sys2Proof.Machine.execCUleD ft fs s
  | .cSfS ft fs => Sys2Proof.Machine.execCSfS ft fs s
  | .cSfD ft fs => Sys2Proof.Machine.execCSfD ft fs s
  | .cNgleS ft fs => Sys2Proof.Machine.execCNgleS ft fs s
  | .cNgleD ft fs => Sys2Proof.Machine.execCNgleD ft fs s
  | .cSeqS ft fs => Sys2Proof.Machine.execCSeqS ft fs s
  | .cSeqD ft fs => Sys2Proof.Machine.execCSeqD ft fs s
  | .cNglS ft fs => Sys2Proof.Machine.execCNglS ft fs s
  | .cNglD ft fs => Sys2Proof.Machine.execCNglD ft fs s
  | .cNgeS ft fs => Sys2Proof.Machine.execCNgeS ft fs s
  | .cNgeD ft fs => Sys2Proof.Machine.execCNgeD ft fs s
  | .cNgtS ft fs => Sys2Proof.Machine.execCNgtS ft fs s
  | .cNgtD ft fs => Sys2Proof.Machine.execCNgtD ft fs s

end Sys2Proof.Machine
end

