-- ==== Sys2Proof/Machine/Step.lean ====
section
/-! DEFINITION. One step of the machine (spec/10_state.md R27). -/

namespace Sys2Proof.Machine

/-- One step (R27). Its order of checks is the priority order of R315; steps 7 to 10 are the meanings' own. -/
def step (s : State) : Host.Outcome State Fault Refusal :=
  if s.outcome = .running then
    if s.sampleIrq.atEnd then .next s.sampleIrq.finish
    else if s.sampleIrq.interruptCondition then raise .int (s.sampleIrq.ip.setWidth 32) s.sampleIrq
    else
      match fetchInstr s.sampleIrq with
      | .ok i => exec i s.sampleIrq
      | .error stop => stopped s.sampleIrq stop
  else .fault .runIsOver

/-- The state with an opcode-table word stored where the next step fetches. -/
def State.withFetchWord (s : State) (nbits w : Nat) : State := s.placeAtPc (tableWord nbits w)

end Sys2Proof.Machine
end

