-- ==== Sys2Proof/Machine/Conventions.lean ====
section
/-! DEFINITION. The software conventions the spec gives beside the hardware: register names and the call convention
(spec/10_state.md R22, spec/41_core_control.md R147), the immediates an assembler computes (spec/30_encoding.md R111), and
the six pseudo-instructions with their expansions (spec/45_pseudo.md R220 to R226). The processor enforces and executes none
of them: no step refers to this file. -/

namespace Sys2Proof.Machine

/-! ## Register names (R22) -/

/-- The column "preserved across a call?" (R22). -/
inductive Preserved where
  | yes
  | no
  | notApplicable
  deriving DecidableEq, Repr

/-- One general register's name, number and call convention (R22). -/
structure RegAlias where
  name      : String
  number    : RegNum
  preserved : Preserved
  deriving DecidableEq, Repr

/-- Registers 0 to 15 (R22). -/
def aliasesLow : List RegAlias :=
  [ ⟨"$zero", 0, .notApplicable⟩, ⟨"$at", 1, .no⟩, ⟨"$v0", 2, .no⟩, ⟨"$v1", 3, .no⟩,
    ⟨"$a0", 4, .no⟩, ⟨"$a1", 5, .no⟩, ⟨"$a2", 6, .no⟩, ⟨"$a3", 7, .no⟩,
    ⟨"$t0", 8, .no⟩, ⟨"$t1", 9, .no⟩, ⟨"$t2", 10, .no⟩, ⟨"$t3", 11, .no⟩,
    ⟨"$t4", 12, .no⟩, ⟨"$t5", 13, .no⟩, ⟨"$t6", 14, .no⟩, ⟨"$t7", 15, .no⟩ ]

/-- Registers 16 to 31 (R22). -/
def aliasesHigh : List RegAlias :=
  [ ⟨"$s0", 16, .yes⟩, ⟨"$s1", 17, .yes⟩, ⟨"$s2", 18, .yes⟩, ⟨"$s3", 19, .yes⟩,
    ⟨"$s4", 20, .yes⟩, ⟨"$s5", 21, .yes⟩, ⟨"$s6", 22, .yes⟩, ⟨"$s7", 23, .yes⟩,
    ⟨"$t8", 24, .no⟩, ⟨"$t9", 25, .no⟩, ⟨"$k0", 26, .no⟩, ⟨"$k1", 27, .no⟩,
    ⟨"$gp", 28, .yes⟩, ⟨"$sp", 29, .yes⟩, ⟨"$fp", 30, .yes⟩, ⟨"$ra", 31, .yes⟩ ]

/-- The register table (R22). -/
def regAliases : List RegAlias := aliasesLow ++ aliasesHigh

/-- The number a register name stands for. -/
def regNamed (name : String) : Option RegNum := (regAliases.find? fun r => r.name == name).map fun r => r.number

/-- `$at`, the assembler temporary (R220 (c)). -/
def atReg : RegNum := 1

/-! ## What an assembler computes (R111) -/

/-- A branch immediate for a label: `(label - (branch + 4)) / 4`, if it is a word offset that fits 16 signed bits. -/
def branchImmTo (branch label : Word) : Option Half :=
  let imm := (label - (branch + 4)).extractLsb' 2 16
  if branchTarget branch imm = label then some imm else none

/-- A jump's address field for a label: `label[27:2]`, if the label is a word address in the region of the delay slot. -/
def jumpFieldTo (jump label : Word) : Option (BitVec 26) :=
  let addr := label.extractLsb' 2 26
  if jumpAddr jump addr = label then some addr else none

/-! ## Pseudo-instructions (R220 to R226) -/

/-- The six pseudo-instructions (R221 to R226). A branch's `imm` is the word offset of its Label from the address after
the expansion's second word, as in R220 (f). -/
inductive Pseudo where
  | blt  (rs rt : RegNum) (imm : Half)
  | bgt  (rs rt : RegNum) (imm : Half)
  | ble  (rs rt : RegNum) (imm : Half)
  | bge  (rs rt : RegNum) (imm : Half)
  | li   (rd : RegNum) (value : Word)
  | move (rd rs : RegNum)
  deriving DecidableEq, Repr

/-- The expansion of `li`, chosen by the value (R225). -/
def expandLi (rd : RegNum) (v : Word) : List Instr :=
  if -32768 ≤ v.toInt ∧ v.toInt ≤ 32767 then [.addiu 0 rd (v.extractLsb' 0 16)]
  else if v.extractLsb' 16 16 = 0 then [.ori 0 rd (v.extractLsb' 0 16)]
  else if v.extractLsb' 0 16 = 0 then [.lui rd (v.extractLsb' 16 16)]
  else [.lui rd (v.extractLsb' 16 16), .ori rd rd (v.extractLsb' 0 16)]

/-- The conventional expansions (R221 to R226); the delay slot is left to the programmer (R220 (e)). -/
def Pseudo.expand : Pseudo → List Instr
  | .blt rs rt imm => [.slt rs rt atReg, .bne atReg 0 imm]
  | .bgt rs rt imm => [.slt rt rs atReg, .bne atReg 0 imm]
  | .ble rs rt imm => [.slt rt rs atReg, .beq atReg 0 imm]
  | .bge rs rt imm => [.slt rs rt atReg, .beq atReg 0 imm]
  | .li rd v => expandLi rd v
  | .move rd rs => [.addu rs 0 rd]

end Sys2Proof.Machine
end

