-- ==== Sys2Proof/WellFormed.lean ====
section
/-! DEFINITION. Well-formed instructions: those for which no operand field alone makes the spec refuse the instruction
(spec/10_state.md R32, R37; spec/46_opmap_integer.md R242 to R247, R251; spec/47_opmap_fp.md R281, R282). An ill-formed
instruction still decodes and encodes; its meaning refuses it by name. -/

namespace Sys2Proof

/-- The register numbers of an instruction that name a double (R32, R211, R213, R270 (e)). -/
def Instr.doubles : Instr → List RegNum
  | .add .. | .addi .. | .addiu .. | .addu .. | .and .. | .andi .. | .beq .. | .bne .. | .j .. | .jal .. | .jr ..
  | .lbu .. | .lhu .. | .ll .. | .lui .. | .lw .. | .nor .. | .or .. | .ori .. | .slt .. | .slti .. | .sltiu ..
  | .sltu .. | .sll .. | .srl .. | .sb .. | .sc .. | .sh .. | .sw .. | .sub .. | .subu .. | .bc1t .. | .bc1f ..
  | .div .. | .divu .. | .addS .. | .subS .. | .mulS .. | .divS .. | .cEqS .. | .cLtS .. | .cLeS .. | .lwc1 ..
  | .mfhi .. | .mflo .. | .mfc0 .. | .mult .. | .multu .. | .sra .. | .swc1 .. | .blez .. | .bgtz .. | .xori ..
  | .lb .. | .lh .. | .lwl .. | .lwr .. | .swl .. | .swr .. | .cache .. | .lwc2 .. | .ldc2 .. | .pref .. | .swc2 ..
  | .sdc2 .. | .sllv .. | .srlv .. | .srav .. | .jalr .. | .movz .. | .movn .. | .syscall .. | .brk .. | .sync
  | .mthi .. | .mtlo .. | .xor .. | .tge .. | .tgeu .. | .tlt .. | .tltu .. | .teq .. | .tne .. | .sqrtS ..
  | .absS .. | .movS .. | .negS .. | .roundWS .. | .truncWS .. | .ceilWS .. | .floorWS .. | .cvtSS .. | .cvtWS ..
  | .movzS .. | .movnS .. | .cFS .. | .cUnS .. | .cUeqS .. | .cOltS .. | .cUltS .. | .cOleS .. | .cUleS .. | .cSfS ..
  | .cNgleS .. | .cSeqS .. | .cNglS .. | .cNgeS .. | .cNgtS .. => []
  | .addD ft fs fd | .subD ft fs fd | .mulD ft fs fd | .divD ft fs fd => [ft, fs, fd]
  | .cEqD ft fs | .cLtD ft fs | .cLeD ft fs | .cFD ft fs | .cUnD ft fs | .cUeqD ft fs | .cOltD ft fs | .cUltD ft fs
  | .cOleD ft fs | .cUleD ft fs | .cSfD ft fs | .cNgleD ft fs | .cSeqD ft fs | .cNglD ft fs | .cNgeD ft fs
  | .cNgtD ft fs => [ft, fs]
  | .ldc1 _ rt _ | .sdc1 _ rt _ => [rt]
  | .sqrtD fs fd | .absD fs fd | .movD fs fd | .negD fs fd | .cvtDD fs fd => [fs, fd]
  | .roundWD fs _ | .truncWD fs _ | .ceilWD fs _ | .floorWD fs _ | .cvtSD fs _ | .cvtWD fs _ => [fs]
  | .cvtDS _ fd => [fd]
  | .movzD _ fs fd | .movnD _ fs fd => [fs, fd]

/-- A register number that may name a double is even (R32). -/
def evenReg (n : RegNum) : Bool := n.toNat % 2 == 0

/-- Whether the spec gives the instruction an effect: not `cache`, the coprocessor-2 transfers (R242 to R247),
`cvt.s.s` and `cvt.d.d` (R281, R282). -/
def Instr.hasEffect : Instr → Bool
  | .cache .. | .lwc2 .. | .ldc2 .. | .swc2 .. | .sdc2 .. | .cvtSS .. | .cvtDD .. => false
  | .add .. | .addi .. | .addiu .. | .addu .. | .and .. | .andi .. | .beq .. | .bne .. | .j .. | .jal .. | .jr ..
  | .lbu .. | .lhu .. | .ll .. | .lui .. | .lw .. | .nor .. | .or .. | .ori .. | .slt .. | .slti .. | .sltiu ..
  | .sltu .. | .sll .. | .srl .. | .sb .. | .sc .. | .sh .. | .sw .. | .sub .. | .subu .. | .bc1t .. | .bc1f ..
  | .div .. | .divu .. | .addS .. | .addD .. | .subS .. | .subD .. | .mulS .. | .mulD .. | .divS .. | .divD ..
  | .cEqS .. | .cEqD .. | .cLtS .. | .cLtD .. | .cLeS .. | .cLeD .. | .lwc1 .. | .ldc1 .. | .mfhi .. | .mflo ..
  | .mfc0 .. | .mult .. | .multu .. | .sra .. | .swc1 .. | .sdc1 .. | .blez .. | .bgtz .. | .xori .. | .lb ..
  | .lh .. | .lwl .. | .lwr .. | .swl .. | .swr .. | .pref .. | .sllv .. | .srlv .. | .srav .. | .jalr .. | .movz ..
  | .movn .. | .syscall .. | .brk .. | .sync | .mthi .. | .mtlo .. | .xor .. | .tge .. | .tgeu .. | .tlt ..
  | .tltu .. | .teq .. | .tne .. | .sqrtS .. | .sqrtD .. | .absS .. | .absD .. | .movS .. | .movD .. | .negS ..
  | .negD .. | .roundWS .. | .roundWD .. | .truncWS .. | .truncWD .. | .ceilWS .. | .ceilWD .. | .floorWS ..
  | .floorWD .. | .cvtSD .. | .cvtDS .. | .cvtWS .. | .cvtWD .. | .movzS .. | .movzD .. | .movnS .. | .movnD ..
  | .cFS .. | .cFD .. | .cUnS .. | .cUnD .. | .cUeqS .. | .cUeqD .. | .cOltS .. | .cOltD .. | .cUltS .. | .cUltD ..
  | .cOleS .. | .cOleD .. | .cUleS .. | .cUleD .. | .cSfS .. | .cSfD .. | .cNgleS .. | .cNgleD .. | .cSeqS ..
  | .cSeqD .. | .cNglS .. | .cNglD .. | .cNgeS .. | .cNgeD .. | .cNgtS .. | .cNgtD .. => true

/-- The branches and jumps of R140: the instructions that are followed by a delay slot. -/
def Instr.isTransfer : Instr → Bool
  | .beq .. | .bne .. | .j .. | .jal .. | .jr .. | .bc1t .. | .bc1f .. | .blez .. | .bgtz .. | .jalr .. => true
  | .add .. | .addi .. | .addiu .. | .addu .. | .and .. | .andi .. | .lbu .. | .lhu .. | .ll .. | .lui .. | .lw ..
  | .nor .. | .or .. | .ori .. | .slt .. | .slti .. | .sltiu .. | .sltu .. | .sll .. | .srl .. | .sb .. | .sc ..
  | .sh .. | .sw .. | .sub .. | .subu .. | .div .. | .divu .. | .addS .. | .addD .. | .subS .. | .subD .. | .mulS ..
  | .mulD .. | .divS .. | .divD .. | .cEqS .. | .cEqD .. | .cLtS .. | .cLtD .. | .cLeS .. | .cLeD .. | .lwc1 ..
  | .ldc1 .. | .mfhi .. | .mflo .. | .mfc0 .. | .mult .. | .multu .. | .sra .. | .swc1 .. | .sdc1 .. | .xori ..
  | .lb .. | .lh .. | .lwl .. | .lwr .. | .swl .. | .swr .. | .cache .. | .lwc2 .. | .ldc2 .. | .pref .. | .swc2 ..
  | .sdc2 .. | .sllv .. | .srlv .. | .srav .. | .movz .. | .movn .. | .syscall .. | .brk .. | .sync | .mthi ..
  | .mtlo .. | .xor .. | .tge .. | .tgeu .. | .tlt .. | .tltu .. | .teq .. | .tne .. | .sqrtS .. | .sqrtD ..
  | .absS .. | .absD .. | .movS .. | .movD .. | .negS .. | .negD .. | .roundWS .. | .roundWD .. | .truncWS ..
  | .truncWD .. | .ceilWS .. | .ceilWD .. | .floorWS .. | .floorWD .. | .cvtSS .. | .cvtSD .. | .cvtDS .. | .cvtDD ..
  | .cvtWS .. | .cvtWD .. | .movzS .. | .movzD .. | .movnS .. | .movnD .. | .cFS .. | .cFD .. | .cUnS .. | .cUnD ..
  | .cUeqS .. | .cUeqD .. | .cOltS .. | .cOltD .. | .cUltS .. | .cUltD .. | .cOleS .. | .cOleD .. | .cUleS ..
  | .cUleD .. | .cSfS .. | .cSfD .. | .cNgleS .. | .cNgleD .. | .cSeqS .. | .cSeqD .. | .cNglS .. | .cNglD ..
  | .cNgeS .. | .cNgeD .. | .cNgtS .. | .cNgtD .. => false

/-- Every register number that names a double is even (R32). -/
def Instr.doublesEven (i : Instr) : Bool := i.doubles.all evenReg

/-- `jalr` names two different registers (R251). -/
def Instr.linkApart (i : Instr) : Bool :=
  match i with
  | .jalr rs rd => rs != rd
  | _ => true

/-- `mfc0` names Status or Cause (R37). -/
def Instr.controlKnown (i : Instr) : Bool :=
  match i with
  | .mfc0 _ rd => rd == Config.crStatusNum || rd == Config.crCauseNum
  | _ => true

/-- No operand field alone makes the spec refuse the instruction. -/
def Instr.wellFormed (i : Instr) : Bool :=
  i.hasEffect && i.doublesEven && i.linkApart && i.controlKnown

end Sys2Proof
end

