-- ==== Sys2Proof/Safety.lean ====
section
/-! DEFINITION. The words claims are stated in: what an instruction may change, how it completes, how it takes an exception,
which accesses are allowed, what a run's good end is, and the invariant every step keeps. -/

namespace Sys2Proof.Machine

/-! ## What may change -/

/-- What an instruction is allowed to change; everything not named stays. Register 0 may be named freely: it always
reads 0 (R21). -/
structure Footprint where
  /-- General registers. -/
  gprs   : List RegNum := []
  /-- Floating-point registers. -/
  fprs   : List RegNum := []
  /-- `hi`. -/
  hi     : Bool := false
  /-- `lo`. -/
  lo     : Bool := false
  /-- `fpcond`. -/
  fpcond : Bool := false
  /-- `llbit` and `lladdr`. -/
  link   : Bool := false
  /-- The count of draws taken. -/
  draws  : Bool := false
  /-- Bytes of memory, by address. -/
  bytes  : Word → Prop := fun _ => False

/-- `t` differs from `s` at most where the footprint allows, the program counters, the control registers and the
outcome left aside. -/
structure Changes (what : Footprint) (s t : State) : Prop where
  gprs    : ∀ r, r ∉ what.gprs → t.x r = s.x r
  fprs    : ∀ r, r ∉ what.fprs → t.f r = s.f r
  hi      : what.hi = false → t.hi = s.hi
  lo      : what.lo = false → t.lo = s.lo
  fpcond  : what.fpcond = false → t.fpcond = s.fpcond
  link    : what.link = false → t.llbit = s.llbit ∧ t.lladdr = s.lladdr
  draws   : what.draws = false → t.draws = s.draws
  bytes   : ∀ a, ¬ what.bytes a → t.mem.read a = s.mem.read a
  memMap  : t.memMap = s.memMap
  endPc   : t.endPc = s.endPc
  irq     : t.irq = s.irq
  stepNo  : t.stepNo = s.stepNo

/-- The control registers and the outcome are as before. -/
structure ControlKept (s t : State) : Prop where
  cause   : t.cause = s.cause
  status  : t.status = s.status
  outcome : t.outcome = s.outcome

/-- The program counters move on by one instruction (R27 step 10). -/
structure Straight (s t : State) : Prop where
  pc      : t.pc = s.npc
  npc     : t.npc = s.npc + 4
  inDelay : t.inDelay = false

/-- The next instruction is in a delay slot, and `target` follows it (R26). -/
structure Branched (target : Word) (s t : State) : Prop where
  pc      : t.pc = s.npc
  npc     : t.npc = target
  inDelay : t.inDelay = true

/-- The addresses `a` to `a + n - 1`. -/
def span (a : Word) (n : Nat) (b : Word) : Prop := ∃ k, k < n ∧ b = a + BitVec.ofNat 32 k

/-- What register `r` reads once `v` has been written to it: a write to register 0 is discarded (R21). -/
def afterWrite (r : RegNum) (v : Word) : Word := if r = 0#5 then 0#32 else v

/-! ## How an instruction ends -/

/-- The instruction runs to its end from `s`: it answers a next state, on the instruction after it, with `result`
true of it and nothing changed outside the footprint. -/
def Completes (i : Instr) (s : State) (what : Footprint) (result : State → Prop) : Prop :=
  ∃ t, exec i s = .next t ∧ result t ∧ Changes what s t ∧ ControlKept s t ∧ Straight s t

/-- The branch or jump runs to its end from `s`, with `target` after the delay slot. -/
def Transfers (i : Instr) (s : State) (what : Footprint) (target : Word) (result : State → Prop) : Prop :=
  ∃ t, exec i s = .next t ∧ result t ∧ Changes what s t ∧ ControlKept s t ∧ Branched target s t

/-- `t` is `s` after exception entry, line by line of R320. -/
structure Entered (e : Exc) (info : Word) (s t : State) : Prop where
  excCode : t.excCode = e.code
  bd      : t.bd = s.inDelay
  ip      : t.ip = s.ip
  el      : t.status = s.status ||| 2#32
  llbit   : t.llbit = false
  lladdr  : t.lladdr = s.lladdr
  pcs     : t.pc = s.pc ∧ t.npc = s.npc ∧ t.inDelay = s.inDelay
  rest    : Changes { link := true } s t
  outcome : t.outcome = .faulted e.code s.pc s.inDelay info

/-- The instruction takes an exception: a next state, everything it would have written unwritten (R320). -/
def Takes (i : Instr) (s : State) (e : Exc) (info : Word) : Prop :=
  ∃ t, exec i s = .next t ∧ Entered e info s t

/-- The instruction runs to its end and writes one general register, and nothing else. -/
def WritesGpr (i : Instr) (rd : RegNum) (value : State → Word) : Prop :=
  ∀ s, Completes i s { gprs := [rd] } fun t => t.x rd = afterWrite rd (value s)

/-- The instructions of a list, one after another; the first that does not go on ends the list. -/
def runList : List Instr → State → Result
  | [], s => .next s
  | i :: rest, s =>
    match exec i s with
    | .next t => runList rest t
    | .fault f => .fault f
    | .refused r => .refused r

/-- The next state, if there is one, with `f` done to it. -/
def onNext (f : State → State) : Result → Result
  | .next t => .next (f t)
  | .fault r => .fault r
  | .refused r => .refused r

/-! ## Encodings as the spec prints them -/

/-- `000000 sssss ttttt ddddd aaaaa ffffff` (R90). -/
def rForm (rs rt rd : RegNum) (shamt : BitVec 5) (funct : BitVec 6) : Word := 0b000000#6 ++ rs ++ rt ++ rd ++ shamt ++ funct

/-- `oooooo sssss ttttt iiiiiiiiiiiiiiii` (R91). -/
def iForm (op : BitVec 6) (rs rt : RegNum) (imm : Half) : Word := op ++ rs ++ rt ++ imm

/-- `010001 mmmmm ttttt sssss ddddd ffffff` (R93). -/
def frForm (fmt : BitVec 5) (ft fs fd : RegNum) (funct : BitVec 6) : Word := 0b010001#6 ++ fmt ++ ft ++ fs ++ fd ++ funct

/-! ## Allowed accesses -/

/-- Every byte `a` to `a + n - 1` allows the kind of access (R66, R67). -/
def Allowed (s : State) (k : Access) (a : Word) (n : Nat) : Prop :=
  ∀ j, j < n → mapped s.memMap k (a + BitVec.ofNat 32 j) = true

/-- A map that maps nothing the decided `MEM_MAP` does not: a launch may narrow it, not widen it (R73). -/
def Narrows (m : List Region) : Prop := ∀ k a, mapped m k a = true → mapped Config.memMap k a = true

/-! ## Floating-point values as numbers -/

/-- The number a finite value is: `±mag` units of `2^-unitExp` (R185, R186, R187). -/
def FpVal.rat (f : Fmt) : FpVal → Option ℚ
  | .nan => none
  | .inf _ => none
  | .fin neg mag => some ((signed neg mag : ℚ) / 2 ^ f.unitExp)

/-- The register holds the result: its pattern, or any NaN where the result is a NaN (R188 (d)). -/
def SingleIs (r : FpResult) (w : Word) : Prop :=
  match r with
  | .bits n => w = BitVec.ofNat 32 n
  | .nan => Fmt.single.classOf w.toNat = .nan

/-- The register pair holds the result, likewise. -/
def DoubleIs (r : FpResult) (v : Double) : Prop :=
  match r with
  | .bits n => v = BitVec.ofNat 64 n
  | .nan => Fmt.double.classOf v.toNat = .nan

/-- `n` is `q` rounded to an integer in a direction (R275 to R278). -/
def Rounded (mode : Rounding) (q : ℚ) (n : Int) : Prop :=
  match mode with
  | .nearestEven => |q - n| ≤ 1 / 2 ∧ (|q - n| = 1 / 2 → n % 2 = 0)
  | .towardZero => n = if 0 ≤ q then ⌊q⌋ else ⌈q⌉
  | .towardPlus => n = ⌈q⌉
  | .towardMinus => n = ⌊q⌋

/-! ## Runs -/

/-- The run of the machine from `s` reaches its normal end: `ended`, and no fault or refusal before it (R346). -/
def EndsNormally (s : State) : Prop := ∃ n t, Host.Core.run core n s = .next t ∧ t.outcome = .ended

/-- A run is in good standing: neither an exception nor a refusal has stopped it (R41). -/
def State.inGoodStanding (s : State) : Bool := decide (s.outcome = .running) || decide (s.outcome = .ended)

/-! ## The invariant -/

/-- What holds of every state of a run: memory is in canonical form, register 0 holds 0 (R21), the bits of Cause and
Status with no field read 0 (R35, R36), `npc` is the next address outside a delay slot (R25, R39), a reservation covers
an aligned word (R38, R81), and a fault's record agrees with the registers exception entry wrote (R41, R320). -/
structure State.Inv (s : State) : Prop where
  memory   : s.mem.wf = true
  zero     : s.gpr[0] = 0#32
  cause    : s.cause &&& 0x7FFF0083#32 = 0#32
  status   : s.status &&& 0xFFFF00EC#32 = 0#32
  straight : s.inDelay = false → s.npc = s.pc + 4
  link     : s.llbit = true → s.lladdr.toNat % 4 = 0
  faulted  : ∀ code pc bd info, s.outcome = .faulted code pc bd info →
    s.excCode = code ∧ s.pc = pc ∧ s.inDelay = bd ∧ s.bd = bd ∧ s.el = true ∧ s.llbit = false
  codes    : ∀ code pc bd info, s.outcome = .faulted code pc bd info →
    code = 0 ∨ (4 ≤ code.toNat ∧ code.toNat ≤ 13)
  refused  : ∀ r, s.outcome ≠ .refused r

end Sys2Proof.Machine
end

