-- ==== Sys2Proof/Certificates/Slice0/Obligations.lean ====
section
/-! DEFINITION. The statements for the provers. Each docstring names the rules of spec/ it follows, and says so where a clause
rests on a decision of the spec or on the model's own choice. -/

open Sys2Proof Sys2Proof.Machine

/-! ## Encoding -/

/-- R95, R96, R97, R98: the four derived immediates, bit by bit and as integers. -/
def Obligations.ImmediateForms : Prop :=
  ∀ (imm : Half) (addr : BitVec 26) (pc : Word),
    (signExtImm imm = (if imm.getLsbD 15 then 0xFFFF#16 else 0#16) ++ imm ∧
      (signExtImm imm).toInt = imm.toInt ∧ -32768 ≤ imm.toInt ∧ imm.toInt ≤ 32767) ∧
    (zeroExtImm imm = 0#16 ++ imm ∧ (zeroExtImm imm).toNat = imm.toNat ∧ imm.toNat ≤ 65535 ∧
      upperImm imm = imm ++ 0#16) ∧
    (branchAddr imm = (if imm.getLsbD 15 then 0x3FFF#14 else 0#14) ++ imm ++ 0#2 ∧
      (branchAddr imm).toInt = 4 * imm.toInt ∧ -131072 ≤ 4 * imm.toInt ∧ 4 * imm.toInt ≤ 131068 ∧
      branchTarget pc imm = BitVec.ofInt 32 (pc.toInt + 4 + 4 * imm.toInt)) ∧
    (jumpAddr pc addr = (pc + 4).extractLsb' 28 4 ++ addr ++ 0#2 ∧ (jumpAddr pc addr).toNat % 4 = 0 ∧
      (pc.toNat % 4 = 0 →
        ((pc + 4).extractLsb' 28 4 ≠ pc.extractLsb' 28 4 ↔ pc.extractLsb' 0 28 = 0xFFFFFFC#28)))

/-- R100 to R105: the decoder reads every encoded instruction back, every operand at every value. The unused fields are
zero by decision D5 of the spec (`STRICT_FIELDS`). -/
def Obligations.DecodeEncode : Prop := ∀ i : Instr, decode (encode i) = .ok i

/-- R100 to R105: no bit of a decoded word is dropped. That two words never decode to one instruction rests on decision D5
of the spec (`STRICT_FIELDS`). -/
def Obligations.EncodeDecode : Prop := ∀ (w : Word) (i : Instr), decode w = .ok i → encode i = w

/-- A few words of the rules' examples (R120, R121, R142, R144, R154, R176, R189, R190, R204, R211, R254, R261), written
out field by field. -/
def Obligations.ExampleWords : Prop :=
  decode (0b000000#6 ++ 17#5 ++ 18#5 ++ 8#5 ++ 0#5 ++ 0x20#6) = .ok (.add 17 18 8) ∧
  decode (0b001000#6 ++ 17#5 ++ 8#5 ++ 0xFFFF#16) = .ok (.addi 17 8 0xFFFF) ∧
  decode (0b000100#6 ++ 17#5 ++ 18#5 ++ 3#16) = .ok (.beq 17 18 3) ∧
  decode (0b000010#6 ++ 0x0100008#26) = .ok (.j 0x0100008) ∧
  decode (0b100011#6 ++ 29#5 ++ 8#5 ++ 0xFFFC#16) = .ok (.lw 29 8 0xFFFC) ∧
  decode (0b010000#6 ++ 0#5 ++ 8#5 ++ 13#5 ++ 0#5 ++ 0#6) = .ok (.mfc0 8 13) ∧
  decode (0b010001#6 ++ 16#5 ++ 6#5 ++ 4#5 ++ 2#5 ++ 0#6) = .ok (.addS 6 4 2) ∧
  decode (0b010001#6 ++ 17#5 ++ 6#5 ++ 4#5 ++ 2#5 ++ 0#6) = .ok (.addD 6 4 2) ∧
  decode (0b010001#6 ++ 8#5 ++ 1#5 ++ 5#16) = .ok (.bc1t 5) ∧
  decode (0b110101#6 ++ 29#5 ++ 2#5 ++ 8#16) = .ok (.ldc1 29 2 8) ∧
  decode (0b000000#6 ++ 0#20 ++ 0x0C#6) = .ok (.syscall 0) ∧
  decode (0b000000#6 ++ 17#5 ++ 18#5 ++ 0#10 ++ 0x31#6) = .ok (.tgeu 17 18 0)

/-- R101 to R106: which words are reserved. The blank cells are the source's; that they and the non-zero unused fields (the
rows of R105, field by field) are reserved is decision D17, D5 of the spec. -/
def Obligations.ReservedWords : Prop :=
  ∀ w : Word,
    let funct := (functField w).toNat
    let unused (fields : Prop) : Prop := fields → decode w = .error .unusedField
    ((opField w).toNat ∈ [0x01, 0x12, 0x13, 0x14, 0x15, 0x16, 0x17, 0x18, 0x19, 0x1A, 0x1B, 0x1C, 0x1D, 0x1E, 0x1F,
        0x27, 0x2C, 0x2D, 0x34, 0x37, 0x3B, 0x3C, 0x3F] → decode w = .error .blankOpcode) ∧
    ((opField w).toNat = 0 → (functField w).toNat ∈ [0x01, 0x05, 0x0E, 0x14, 0x15, 0x16, 0x17, 0x1C, 0x1D, 0x1E, 0x1F,
        0x28, 0x29, 0x2C, 0x2D, 0x2E, 0x2F, 0x35, 0x37, 0x38, 0x39, 0x3A, 0x3B, 0x3C, 0x3D, 0x3E, 0x3F] →
      decode w = .error .blankFunct) ∧
    ((opField w).toNat = 0x11 → ((fmtField w).toNat = 0x10 ∨ (fmtField w).toNat = 0x11) →
      (functField w).toNat ∈ [0x08, 0x09, 0x0A, 0x0B, 0x10, 0x11, 0x14, 0x15, 0x16, 0x17, 0x18, 0x19, 0x1A, 0x1B, 0x1C,
        0x1D, 0x1E, 0x1F, 0x22, 0x23, 0x25, 0x26, 0x27, 0x28, 0x29, 0x2A, 0x2B, 0x2C, 0x2D, 0x2E, 0x2F] →
      decode w = .error .blankFpFunct) ∧
    ((opField w).toNat = 0x11 → (fmtField w).toNat ∉ [0x08, 0x10, 0x11] → decode w = .error .reservedFmt) ∧
    ((opField w).toNat = 0x11 → (fmtField w).toNat = 0x08 → 2 ≤ (ftField w).toNat → decode w = .error .reservedFt) ∧
    ((opField w).toNat = 0x10 → ((rsField w).toNat ≠ 0 ∨ (functField w).toNat ≠ 0) → decode w = .error .reservedCop0) ∧
    ((opField w).toNat = 0 →
      (funct ∈ [0x20, 0x21, 0x22, 0x23, 0x24, 0x25, 0x26, 0x27, 0x2A, 0x2B, 0x04, 0x06, 0x07, 0x0A, 0x0B] →
        unused (shamtField w ≠ 0)) ∧
      (funct ∈ [0x00, 0x02, 0x03] → unused (rsField w ≠ 0)) ∧
      (funct = 0x08 → unused (rtField w ≠ 0 ∨ rdField w ≠ 0 ∨ shamtField w ≠ 0)) ∧
      (funct = 0x09 → unused (rtField w ≠ 0 ∨ shamtField w ≠ 0)) ∧
      (funct ∈ [0x10, 0x12] → unused (rsField w ≠ 0 ∨ rtField w ≠ 0 ∨ shamtField w ≠ 0)) ∧
      (funct ∈ [0x11, 0x13] → unused (rtField w ≠ 0 ∨ rdField w ≠ 0 ∨ shamtField w ≠ 0)) ∧
      (funct ∈ [0x18, 0x19, 0x1A, 0x1B] → unused (rdField w ≠ 0 ∨ shamtField w ≠ 0)) ∧
      (funct = 0x0F → unused (rsField w ≠ 0 ∨ rtField w ≠ 0 ∨ rdField w ≠ 0 ∨ shamtField w ≠ 0))) ∧
    ((opField w).toNat = 0x0F → unused (rsField w ≠ 0)) ∧
    ((opField w).toNat ∈ [0x06, 0x07] → unused (rtField w ≠ 0)) ∧
    ((opField w).toNat = 0x10 → (rsField w).toNat = 0 → funct = 0 → unused (shamtField w ≠ 0)) ∧
    ((opField w).toNat = 0x11 → ((fmtField w).toNat = 0x10 ∨ (fmtField w).toNat = 0x11) →
      (funct ∈ [0x04, 0x05, 0x06, 0x07, 0x0C, 0x0D, 0x0E, 0x0F, 0x20, 0x21, 0x24] → unused (ftField w ≠ 0)) ∧
      (0x30 ≤ funct → unused (fdField w ≠ 0))) ∧
    (decode w = .error .unusedField → ∀ i, encode i ≠ w)

/-! ## Integer arithmetic and logic -/

/-- R122 to R125, R127 to R133, R137: word, result and frame of the core instructions that raise nothing. A result written
to register 0 is discarded. -/
def Obligations.CoreAlu : Prop :=
  ∀ (rs rt rd : RegNum) (imm : Half),
    (encode (.addiu rs rt imm) = iForm 0b001001#6 rs rt imm ∧
      WritesGpr (.addiu rs rt imm) rt fun s => BitVec.ofInt 32 ((s.x rs).toInt + imm.toInt)) ∧
    (encode (.addu rs rt rd) = rForm rs rt rd 0#5 0b100001#6 ∧
      WritesGpr (.addu rs rt rd) rd fun s => BitVec.ofNat 32 ((s.x rs).toNat + (s.x rt).toNat)) ∧
    (encode (.and rs rt rd) = rForm rs rt rd 0#5 0b100100#6 ∧
      WritesGpr (.and rs rt rd) rd fun s => s.x rs &&& s.x rt) ∧
    (encode (.andi rs rt imm) = iForm 0b001100#6 rs rt imm ∧
      WritesGpr (.andi rs rt imm) rt fun s => s.x rs &&& (0#16 ++ imm)) ∧
    (encode (.nor rs rt rd) = rForm rs rt rd 0#5 0b100111#6 ∧
      WritesGpr (.nor rs rt rd) rd fun s => ~~~(s.x rs ||| s.x rt)) ∧
    (encode (.or rs rt rd) = rForm rs rt rd 0#5 0b100101#6 ∧
      WritesGpr (.or rs rt rd) rd fun s => s.x rs ||| s.x rt) ∧
    (encode (.ori rs rt imm) = iForm 0b001101#6 rs rt imm ∧
      WritesGpr (.ori rs rt imm) rt fun s => s.x rs ||| (0#16 ++ imm)) ∧
    (encode (.slt rs rt rd) = rForm rs rt rd 0#5 0b101010#6 ∧
      WritesGpr (.slt rs rt rd) rd fun s => if (s.x rs).toInt < (s.x rt).toInt then 1 else 0) ∧
    (encode (.slti rs rt imm) = iForm 0b001010#6 rs rt imm ∧
      WritesGpr (.slti rs rt imm) rt fun s => if (s.x rs).toInt < imm.toInt then 1 else 0) ∧
    (encode (.sltiu rs rt imm) = iForm 0b001011#6 rs rt imm ∧
      WritesGpr (.sltiu rs rt imm) rt fun s => if (s.x rs).toNat < (imm.signExtend 32).toNat then 1 else 0) ∧
    (encode (.sltu rs rt rd) = rForm rs rt rd 0#5 0b101011#6 ∧
      WritesGpr (.sltu rs rt rd) rd fun s => if (s.x rs).toNat < (s.x rt).toNat then 1 else 0) ∧
    (encode (.subu rs rt rd) = rForm rs rt rd 0#5 0b100011#6 ∧
      WritesGpr (.subu rs rt rd) rd fun s => BitVec.ofInt 32 ((s.x rs).toInt - (s.x rt).toInt))

/-- R126, R134, R135, R177: `lui` and the shifts by a constant, the shifts as multiplication and floor division by powers of
two. -/
def Obligations.LuiAndShifts : Prop :=
  ∀ (rt rd : RegNum) (shamt : BitVec 5) (imm : Half),
    (encode (.lui rt imm) = iForm 0b001111#6 0#5 rt imm ∧ WritesGpr (.lui rt imm) rt fun _ => imm ++ 0#16) ∧
    (encode (.sll rt rd shamt) = rForm 0#5 rt rd shamt 0b000000#6 ∧
      WritesGpr (.sll rt rd shamt) rd fun s => BitVec.ofNat 32 ((s.x rt).toNat * 2 ^ shamt.toNat)) ∧
    (encode (.srl rt rd shamt) = rForm 0#5 rt rd shamt 0b000010#6 ∧
      WritesGpr (.srl rt rd shamt) rd fun s => BitVec.ofNat 32 ((s.x rt).toNat / 2 ^ shamt.toNat)) ∧
    (encode (.sra rt rd shamt) = rForm 0#5 rt rd shamt 0b000011#6 ∧
      WritesGpr (.sra rt rd shamt) rd fun s => BitVec.ofInt 32 ((s.x rt).toInt / 2 ^ shamt.toNat))

/-- R120, R121, R136, R139: `add`, `addi`, `sub` write the exact sum or difference when it fits 32 signed bits, take Ov
when it does not, also with register 0 as destination, and the two are told apart by the signs as R139 says. The condition
and the entry are decisions D14, D2 of the spec. -/
def Obligations.SignedOverflow : Prop :=
  (∀ (rs rt rd : RegNum) (imm : Half) (s : State),
    let sum := (s.x rs).toInt + (s.x rt).toInt
    let sumImm := (s.x rs).toInt + imm.toInt
    let difference := (s.x rs).toInt - (s.x rt).toInt
    let fits (n : Int) : Prop := -2 ^ 31 ≤ n ∧ n ≤ 2 ^ 31 - 1
    (fits sum → Completes (.add rs rt rd) s { gprs := [rd] } fun t => t.x rd = afterWrite rd (BitVec.ofInt 32 sum)) ∧
    (¬ fits sum → Takes (.add rs rt rd) s .ov (encode (.add rs rt rd))) ∧
    (fits sumImm →
      Completes (.addi rs rt imm) s { gprs := [rt] } fun t => t.x rt = afterWrite rt (BitVec.ofInt 32 sumImm)) ∧
    (¬ fits sumImm → Takes (.addi rs rt imm) s .ov (encode (.addi rs rt imm))) ∧
    (fits difference →
      Completes (.sub rs rt rd) s { gprs := [rd] } fun t => t.x rd = afterWrite rd (BitVec.ofInt 32 difference)) ∧
    (¬ fits difference → Takes (.sub rs rt rd) s .ov (encode (.sub rs rt rd)))) ∧
  ∀ a b : Word,
    (addOverflows a b = true ↔ a.msb = b.msb ∧ (a + b).msb ≠ a.msb) ∧
    (subOverflows a b = true ↔ a.msb ≠ b.msb ∧ (a - b).msb = b.msb)

/-- R233, R248 to R250, R252, R253, R257 to R259: the map-only integer operations, under `MAP_ONLY = general-knowledge`.
That value is the model's choice (notes/assumptions/7.md); no source document states these meanings. -/
def Obligations.MapOnlyInteger : Prop :=
  ∀ (rs rt rd : RegNum) (imm : Half),
    WritesGpr (.xori rs rt imm) rt (fun s => s.x rs ^^^ (0#16 ++ imm)) ∧
    WritesGpr (.xor rs rt rd) rd (fun s => s.x rs ^^^ s.x rt) ∧
    WritesGpr (.sllv rs rt rd) rd (fun s => BitVec.ofNat 32 ((s.x rt).toNat * 2 ^ ((s.x rs).toNat % 32))) ∧
    WritesGpr (.srlv rs rt rd) rd (fun s => BitVec.ofNat 32 ((s.x rt).toNat / 2 ^ ((s.x rs).toNat % 32))) ∧
    WritesGpr (.srav rs rt rd) rd (fun s => BitVec.ofInt 32 ((s.x rt).toInt / 2 ^ ((s.x rs).toNat % 32))) ∧
    (∀ s, Completes (.movz rs rt rd) s { gprs := [rd] } fun t =>
      t.x rd = if s.x rt = 0 then afterWrite rd (s.x rs) else s.x rd) ∧
    (∀ s, Completes (.movn rs rt rd) s { gprs := [rd] } fun t =>
      t.x rd = if s.x rt = 0 then s.x rd else afterWrite rd (s.x rs)) ∧
    (∀ s, Completes (.mthi rs) s { hi := true } fun t => t.hi = s.x rs) ∧
    (∀ s, Completes (.mtlo rs) s { lo := true } fun t => t.lo = s.x rs)

/-! ## Branches and jumps -/

/-- R142, R143, R204, R205 with R26, R140: outside a delay slot a branch completes, taken or not, with its target or the
second next instruction after the slot. The delay slot is decision D1 of the spec. -/
def Obligations.Branches : Prop :=
  ∀ (rs rt : RegNum) (imm : Half) (s : State), s.inDelay = false →
    let target (taken : Bool) : Word :=
      if taken then BitVec.ofInt 32 (s.pc.toInt + 4 + 4 * imm.toInt) else s.npc + 4
    Transfers (.beq rs rt imm) s {} (target (decide (s.x rs = s.x rt))) (fun _ => True) ∧
    Transfers (.bne rs rt imm) s {} (target (decide (s.x rs ≠ s.x rt))) (fun _ => True) ∧
    Transfers (.bc1t imm) s {} (target s.fpcond) (fun _ => True) ∧
    Transfers (.bc1f imm) s {} (target (!s.fpcond)) (fun _ => True)

/-- R144, R145, R146 with R26, R140: outside a delay slot a jump completes; `jal` links the address after the slot. The
delay slot is decision D1 of the spec. -/
def Obligations.Jumps : Prop :=
  ∀ (rs : RegNum) (addr : BitVec 26) (s : State), s.inDelay = false →
    Transfers (.j addr) s {} ((s.pc + 4).extractLsb' 28 4 ++ addr ++ 0#2) (fun _ => True) ∧
    Transfers (.jal addr) s { gprs := [31] } ((s.pc + 4).extractLsb' 28 4 ++ addr ++ 0#2) (fun t => t.x 31 = s.pc + 8) ∧
    Transfers (.jr rs) s {} (s.x rs) (fun _ => True)

/-- R231, R232, R251: the map-only branches and `jalr`, which reads its target before it links and is refused when the two
registers are one. Under `MAP_ONLY = general-knowledge`, the model's choice (notes/assumptions/7.md). -/
def Obligations.MapOnlyTransfers : Prop :=
  ∀ (rs rd : RegNum) (imm : Half) (s : State), s.inDelay = false →
    let target (taken : Bool) : Word :=
      if taken then BitVec.ofInt 32 (s.pc.toInt + 4 + 4 * imm.toInt) else s.npc + 4
    Transfers (.blez rs imm) s {} (target (decide ((s.x rs).toInt ≤ 0))) (fun _ => True) ∧
    Transfers (.bgtz rs imm) s {} (target (decide (0 < (s.x rs).toInt))) (fun _ => True) ∧
    (rd ≠ rs → Transfers (.jalr rs rd) s { gprs := [rd] } (s.x rs) (fun t => t.x rd = afterWrite rd (s.pc + 8))) ∧
    exec (.jalr rs rs) s = .refused .jalrSameRegister

/-- R141: a branch or jump in a delay slot is refused, all ten of them (decision D18 of the spec; the map-only ones rest on
notes/assumptions/7.md). -/
def Obligations.NoTransferInDelaySlot : Prop :=
  ∀ (i : Instr) (s : State), s.inDelay = true → i.isTransfer = true → exec i s = .refused .controlTransferInDelaySlot

/-- R27, R140: whatever stands in a delay slot, if the machine still runs after it, the instruction at `npc` is next and
is in no delay slot (decision D1 of the spec). -/
def Obligations.TargetAfterDelaySlot : Prop :=
  ∀ s t : State, s.inDelay = true → step s = .next t → t.outcome = .running →
    t.pc = s.npc ∧ t.npc = s.npc + 4 ∧ t.inDelay = false

/-! ## Loads and stores -/

/-- R150, R152, R153, R154, R155: an aligned, allowed load completes with the big-endian bytes at the effective address, the
unsigned ones zero-extended; `ll` also reserves the word. The checks and the reservation are decisions D4, D15, D8 of the
spec. -/
def Obligations.Loads : Prop :=
  ∀ (rs rt : RegNum) (imm : Half) (s : State),
    let a := s.ea rs imm
    let m := s.mem.read
    a = BitVec.ofInt 32 ((s.x rs).toInt + imm.toInt) ∧
    (Allowed s .read a 1 → Completes (.lbu rs rt imm) s { gprs := [rt] } fun t => t.x rt = afterWrite rt (0#24 ++ m a)) ∧
    (a.toNat % 2 = 0 → Allowed s .read a 2 →
      Completes (.lhu rs rt imm) s { gprs := [rt] } fun t => t.x rt = afterWrite rt (0#16 ++ m a ++ m (a + 1))) ∧
    (a.toNat % 4 = 0 → Allowed s .read a 4 →
      Completes (.lw rs rt imm) s { gprs := [rt] } (fun t =>
        t.x rt = afterWrite rt (m a ++ m (a + 1) ++ m (a + 2) ++ m (a + 3))) ∧
      Completes (.ll rs rt imm) s { gprs := [rt], link := true } (fun t =>
        t.x rt = afterWrite rt (m a ++ m (a + 1) ++ m (a + 2) ++ m (a + 3)) ∧ t.llbit = true ∧ t.lladdr = a))

/-- R156, R157, R158: an aligned, allowed store completes, its bytes at the effective address with the most significant
first, no other byte and no register changed. The checks are decisions D4, D15 of the spec. -/
def Obligations.Stores : Prop :=
  ∀ (rs rt : RegNum) (imm : Half) (s : State), s.mem.wf = true →
    let a := s.ea rs imm
    let v := s.x rt
    (Allowed s .write a 1 →
      Completes (.sb rs rt imm) s { bytes := span a 1 } fun t => t.mem.read a = v.extractLsb' 0 8) ∧
    (a.toNat % 2 = 0 → Allowed s .write a 2 →
      Completes (.sh rs rt imm) s { bytes := span a 2 } fun t =>
        t.mem.read a = v.extractLsb' 8 8 ∧ t.mem.read (a + 1) = v.extractLsb' 0 8) ∧
    (a.toNat % 4 = 0 → Allowed s .write a 4 →
      Completes (.sw rs rt imm) s { bytes := span a 4 } fun t =>
        t.mem.read a = v.extractLsb' 24 8 ∧ t.mem.read (a + 1) = v.extractLsb' 16 8 ∧
        t.mem.read (a + 2) = v.extractLsb' 8 8 ∧ t.mem.read (a + 3) = v.extractLsb' 0 8)

/-- R159: an aligned, allowed `sc` with no reservation fails; with the reservation of its address it succeeds or, for one
value of the draw, fails; with another address reserved it is refused. Each clause holds for every value of the free
values. Decision D8 of the spec; the draws are notes/assumptions/6.md. -/
def Obligations.StoreConditional : Prop :=
  ∀ (rs rt : RegNum) (imm : Half) (s : State), s.mem.wf = true →
    let a := s.ea rs imm
    a.toNat % 4 = 0 → Allowed s .write a 4 →
    (s.llbit = false → Completes (.sc rs rt imm) s { gprs := [rt], link := true } fun t =>
      t.x rt = 0 ∧ t.llbit = false ∧ t.lladdr = s.lladdr) ∧
    (s.llbit = true → s.lladdr = a →
      (Config.freeBit s.draws = false →
        Completes (.sc rs rt imm) s { gprs := [rt], link := true, draws := true, bytes := span a 4 } fun t =>
          t.x rt = afterWrite rt 1 ∧ t.mem.readWord a = s.x rt ∧ t.llbit = false ∧ t.lladdr = s.lladdr) ∧
      (Config.freeBit s.draws = true →
        Completes (.sc rs rt imm) s { gprs := [rt], link := true, draws := true } fun t =>
          t.x rt = 0 ∧ t.llbit = false ∧ t.lladdr = s.lladdr)) ∧
    (s.llbit = true → s.lladdr ≠ a → exec (.sc rs rt imm) s = .refused .scAddressMismatch)

/-- R234, R235, R236, R238, R239: the sign-extending loads, and the loads that merge part of an aligned word into the
register. Under `MAP_ONLY = general-knowledge`, the model's choice (notes/assumptions/7.md). -/
def Obligations.MapOnlyLoads : Prop :=
  ∀ (rs rt : RegNum) (imm : Half) (s : State),
    let a := s.ea rs imm
    let k := a.toNat % 4
    let base := a - BitVec.ofNat 32 k
    let w := (s.mem.readWord base).toNat
    let old := (s.x rt).toNat
    (Allowed s .read a 1 →
      Completes (.lb rs rt imm) s { gprs := [rt] } fun t =>
        t.x rt = afterWrite rt (BitVec.ofInt 32 (s.mem.read a).toInt)) ∧
    (a.toNat % 2 = 0 → Allowed s .read a 2 →
      Completes (.lh rs rt imm) s { gprs := [rt] } fun t =>
        t.x rt = afterWrite rt (BitVec.ofInt 32 (s.mem.read a ++ s.mem.read (a + 1)).toInt)) ∧
    (Allowed s .read base 4 →
      Completes (.lwl rs rt imm) s { gprs := [rt] } (fun t =>
        t.x rt = afterWrite rt (BitVec.ofNat 32 (w * 2 ^ (8 * k) % 2 ^ 32 + old % 2 ^ (8 * k)))) ∧
      Completes (.lwr rs rt imm) s { gprs := [rt] } (fun t =>
        t.x rt = afterWrite rt
          (BitVec.ofNat 32 (old / 2 ^ (8 * (k + 1)) * 2 ^ (8 * (k + 1)) + w / 2 ^ (8 * (3 - k))))))

/-- R236, R240, R241: the stores of part of a register into an aligned word, and the bytes each writes. Under
`MAP_ONLY = general-knowledge`, the model's choice (notes/assumptions/7.md). -/
def Obligations.UnalignedStores : Prop :=
  ∀ (rs rt : RegNum) (imm : Half) (s : State), s.mem.wf = true →
    let a := s.ea rs imm
    let k := a.toNat % 4
    let base := a - BitVec.ofNat 32 k
    let w := (s.mem.readWord base).toNat
    let v := (s.x rt).toNat
    Allowed s .read base 4 → Allowed s .write base 4 →
    Completes (.swl rs rt imm) s { bytes := span a (4 - k) } (fun t =>
      t.mem.readWord base = BitVec.ofNat 32 (w / 2 ^ (8 * (4 - k)) * 2 ^ (8 * (4 - k)) + v / 2 ^ (8 * k))) ∧
    Completes (.swr rs rt imm) s { bytes := span base (k + 1) } (fun t =>
      t.mem.readWord base = BitVec.ofNat 32 (v * 2 ^ (8 * (3 - k)) % 2 ^ 32 + w % 2 ^ (8 * (3 - k))))

/-- R236: `lwl` at `p` then `lwr` at `p + 3` load the word at any byte address `p`, into any register but the base (which
the first load would change), and `swl`, `swr` store any register there. Under `MAP_ONLY = general-knowledge`, the model's
choice (notes/assumptions/7.md). -/
def Obligations.UnalignedPairs : Prop :=
  ∀ (rs rt : RegNum) (imm imm3 : Half) (s : State),
    let p := s.ea rs imm
    s.ea rs imm3 = p + 3 → Allowed s .read (wordBase p) 4 → Allowed s .read (wordBase (p + 3)) 4 →
    (rs ≠ rt ∨ rt = 0 → ∃ t, runList [.lwl rs rt imm, .lwr rs rt imm3] s = .next t ∧
      t.x rt = afterWrite rt (s.mem.read p ++ s.mem.read (p + 1) ++ s.mem.read (p + 2) ++ s.mem.read (p + 3))) ∧
    (s.mem.wf = true → Allowed s .write (wordBase p) 4 → Allowed s .write (wordBase (p + 3)) 4 →
      ∃ t, runList [.swl rs rt imm, .swr rs rt imm3] s = .next t ∧
        t.mem.read p ++ t.mem.read (p + 1) ++ t.mem.read (p + 2) ++ t.mem.read (p + 3) = s.x rt ∧
        ∀ b, ¬ span p 4 b → t.mem.read b = s.mem.read b)

/-- R210 to R213: the floating-point loads and stores move bit patterns; a double's more significant word is the one at the
lower address and in the even register; an odd register number for a double is refused (decisions D28, D11 of the spec). -/
def Obligations.FpLoadsStores : Prop :=
  ∀ (rs rt : RegNum) (imm : Half) (s : State), s.mem.wf = true →
    let a := s.ea rs imm
    (a.toNat % 4 = 0 → Allowed s .read a 4 →
      Completes (.lwc1 rs rt imm) s { fprs := [rt] } fun t => t.f rt = s.mem.readWord a) ∧
    (a.toNat % 4 = 0 → Allowed s .write a 4 →
      Completes (.swc1 rs rt imm) s { bytes := span a 4 } fun t => t.mem.readWord a = s.f rt) ∧
    (a.toNat % 8 = 0 → rt.toNat % 2 = 0 → Allowed s .read a 8 →
      Completes (.ldc1 rs rt imm) s { fprs := [rt, rt + 1] } fun t =>
        t.f rt = s.mem.readWord a ∧ t.f (rt + 1) = s.mem.readWord (a + 4)) ∧
    (a.toNat % 8 = 0 → rt.toNat % 2 = 0 → Allowed s .write a 8 →
      Completes (.sdc1 rs rt imm) s { bytes := span a 8 } fun t =>
        t.mem.readWord a = s.f rt ∧ t.mem.readWord (a + 4) = s.f (rt + 1)) ∧
    (a.toNat % 8 = 0 → rt.toNat % 2 = 1 →
      exec (.ldc1 rs rt imm) s = .refused .oddDoubleRegister ∧ exec (.sdc1 rs rt imm) s = .refused .oddDoubleRegister)

/-- R69, R151, R301, R302: a misaligned load takes AdEL and a misaligned store AdES, with the address, before any other
check of the access (decision D4 of the spec; `lh` rests on notes/assumptions/7.md). -/
def Obligations.MisalignedAccesses : Prop :=
  ∀ (rs rt : RegNum) (imm : Half) (s : State),
    let a := s.ea rs imm
    (a.toNat % 2 ≠ 0 →
      Takes (.lhu rs rt imm) s .adEL a ∧ Takes (.lh rs rt imm) s .adEL a ∧ Takes (.sh rs rt imm) s .adES a) ∧
    (a.toNat % 4 ≠ 0 →
      Takes (.lw rs rt imm) s .adEL a ∧ Takes (.ll rs rt imm) s .adEL a ∧ Takes (.lwc1 rs rt imm) s .adEL a ∧
      Takes (.sw rs rt imm) s .adES a ∧ Takes (.sc rs rt imm) s .adES a ∧ Takes (.swc1 rs rt imm) s .adES a) ∧
    (a.toNat % 8 ≠ 0 → Takes (.ldc1 rs rt imm) s .adEL a ∧ Takes (.sdc1 rs rt imm) s .adES a)

/-- R74, R82, R151, R304: an aligned access with a byte the map does not allow takes DBE with the address, but a store into
the text segment is refused (decisions D15, D16 of the spec). That the unaligned ones check and report the aligned word, and
read it before they write, is the model's reading (notes/assumptions/11.md), that the text segment refuses by address alone
its choice (notes/assumptions/13.md); the map-only ones rest on notes/assumptions/7.md. -/
def Obligations.UnmappedAccesses : Prop :=
  ∀ (rs rt : RegNum) (imm : Half) (s : State),
    let a := s.ea rs imm
    let inTextSegment : Prop := 0x00400000 ≤ a.toNat ∧ a.toNat ≤ 0x0FFFFFFF
    let stops (i : Instr) : Prop :=
      (inTextSegment → exec i s = .refused .storeIntoText) ∧ (¬ inTextSegment → Takes i s .dbe a)
    (¬ Allowed s .read a 1 → Takes (.lbu rs rt imm) s .dbe a ∧ Takes (.lb rs rt imm) s .dbe a) ∧
    (a.toNat % 2 = 0 → ¬ Allowed s .read a 2 → Takes (.lhu rs rt imm) s .dbe a ∧ Takes (.lh rs rt imm) s .dbe a) ∧
    (a.toNat % 4 = 0 → ¬ Allowed s .read a 4 →
      Takes (.lw rs rt imm) s .dbe a ∧ Takes (.ll rs rt imm) s .dbe a ∧ Takes (.lwc1 rs rt imm) s .dbe a) ∧
    (a.toNat % 8 = 0 → rt.toNat % 2 = 0 → ¬ Allowed s .read a 8 → Takes (.ldc1 rs rt imm) s .dbe a) ∧
    (¬ Allowed s .write a 1 → stops (.sb rs rt imm)) ∧
    (a.toNat % 2 = 0 → ¬ Allowed s .write a 2 → stops (.sh rs rt imm)) ∧
    (a.toNat % 4 = 0 → ¬ Allowed s .write a 4 →
      stops (.sw rs rt imm) ∧ stops (.sc rs rt imm) ∧ stops (.swc1 rs rt imm)) ∧
    (a.toNat % 8 = 0 → rt.toNat % 2 = 0 → ¬ Allowed s .write a 8 → stops (.sdc1 rs rt imm)) ∧
    (¬ Allowed s .read (wordBase a) 4 →
      Takes (.lwl rs rt imm) s .dbe (wordBase a) ∧ Takes (.lwr rs rt imm) s .dbe (wordBase a) ∧
      Takes (.swl rs rt imm) s .dbe (wordBase a) ∧ Takes (.swr rs rt imm) s .dbe (wordBase a)) ∧
    (Allowed s .read (wordBase a) 4 → ¬ Allowed s .write (wordBase a) 4 → ∀ i ∈ [Instr.swl rs rt imm, .swr rs rt imm],
      (inTextSegment → exec i s = .refused .storeIntoText) ∧ (¬ inTextSegment → Takes i s .dbe (wordBase a)))

/-- R73: the decided `MEM_MAP`, by address (decision D15 of the spec). -/
def Obligations.MemoryMap : Prop :=
  ∀ a : Word,
    (mapped Config.memMap .read a = true ↔ 0x00400000 ≤ a.toNat ∧ a.toNat ≤ 0x7FFFFFFF) ∧
    (mapped Config.memMap .write a = true ↔ 0x10000000 ≤ a.toNat ∧ a.toNat ≤ 0x7FFFFFFF) ∧
    (mapped Config.memMap .fetch a = true ↔ 0x00400000 ≤ a.toNat ∧ a.toNat ≤ 0x0FFFFFFF)

/-- R63, R65: a narrow read after a wide write sees the corresponding bytes, and two words make a double word (derived by
the spec from R63, R66 and R67). That the list of cells keeps its canonical form is about the model's own form of memory
(notes/assumptions/2.md), no rule of the spec. -/
def Obligations.MixedWidths : Prop :=
  ∀ (m : Memory) (a w0 w1 : Word), m.wf = true →
    let m0 := m.writeWord a w0
    let m1 := m0.writeWord (a + 4) w1
    (m0.read a = w0.extractLsb' 24 8 ∧ m0.read (a + 1) = w0.extractLsb' 16 8 ∧ m0.read (a + 2) = w0.extractLsb' 8 8 ∧
      m0.read (a + 3) = w0.extractLsb' 0 8) ∧
    (m0.readHalf a = w0.extractLsb' 16 16 ∧ m0.readHalf (a + 2) = w0.extractLsb' 0 16) ∧
    m0.readWord a = w0 ∧ m1.readDouble a = w0 ++ w1 ∧ m1.wf = true

/-! ## Multiply and divide -/

/-- R172, R173: `{hi, lo}` is the full 64-bit product, signed or unsigned. -/
def Obligations.Multiply : Prop :=
  ∀ (rs rt : RegNum) (s : State),
    encode (.mult rs rt) = rForm rs rt 0#5 0#5 0b011000#6 ∧
    encode (.multu rs rt) = rForm rs rt 0#5 0#5 0b011001#6 ∧
    Completes (.mult rs rt) s { hi := true, lo := true } (fun t =>
      (t.hi ++ t.lo : BitVec 64) = BitVec.ofInt 64 ((s.x rs).toInt * (s.x rt).toInt)) ∧
    Completes (.multu rs rt) s { hi := true, lo := true } (fun t =>
      t.hi.toNat * 2 ^ 32 + t.lo.toNat = (s.x rs).toNat * (s.x rt).toNat)

/-- R170, R171, R178: with a divisor that is not zero, `lo` and `hi` are the quotient rounded toward zero and the remainder
with the sign of the dividend, but for the one quotient that does not fit; with a zero divisor both are free values, nothing
is raised and nothing else changes (decision D12 of the spec; notes/assumptions/6.md). -/
def Obligations.Divide : Prop :=
  ∀ (rs rt : RegNum) (s : State),
    let n := (s.x rs).toInt
    let m := (s.x rt).toInt
    (s.x rt ≠ 0 →
      Completes (.div rs rt) s { hi := true, lo := true } (fun t =>
        if n = -2 ^ 31 ∧ m = -1 then t.lo = 0x80000000 ∧ t.hi = 0
        else n = t.lo.toInt * m + t.hi.toInt ∧ |t.hi.toInt| < |m| ∧ (t.hi.toInt = 0 ∨ (t.hi.toInt < 0 ↔ n < 0))) ∧
      Completes (.divu rs rt) s { hi := true, lo := true } (fun t =>
        (s.x rs).toNat = t.lo.toNat * (s.x rt).toNat + t.hi.toNat ∧ t.hi.toNat < (s.x rt).toNat)) ∧
    (s.x rt = 0 →
      Completes (.div rs rt) s { hi := true, lo := true, draws := true } (fun _ => True) ∧
      Completes (.divu rs rt) s { hi := true, lo := true, draws := true } (fun _ => True))

/-- R174, R175: `mfhi` and `mflo` copy. -/
def Obligations.HiLoReads : Prop :=
  ∀ rd : RegNum,
    (encode (.mfhi rd) = rForm 0#5 0#5 rd 0#5 0b010000#6 ∧ WritesGpr (.mfhi rd) rd fun s => s.hi) ∧
    (encode (.mflo rd) = rForm 0#5 0#5 rd 0#5 0b010010#6 ∧ WritesGpr (.mflo rd) rd fun s => s.lo)

/-- R29: an instruction other than the multiplies, the divides and the four moves neither reads nor writes `hi` and `lo`:
with other values there it does all the same, and leaves them. The map-only ones rest on notes/assumptions/7.md. -/
def Obligations.HiLoPrivate : Prop :=
  ∀ (i : Instr) (s : State) (h l : Word),
    (∀ rs rt, i ≠ .mult rs rt ∧ i ≠ .multu rs rt ∧ i ≠ .div rs rt ∧ i ≠ .divu rs rt) →
    (∀ r, i ≠ .mfhi r ∧ i ≠ .mflo r ∧ i ≠ .mthi r ∧ i ≠ .mtlo r) →
    exec i (s.setHiLo h l) = onNext (fun t => t.setHiLo h l) (exec i s)

/-- R33, R203: an instruction that is neither a compare nor a branch on `fpcond` neither reads nor writes it. The compares
are the words with opcode 11hex, fmt 10hex or 11hex and funct 30hex or more. The map-only ones rest on
notes/assumptions/7.md. -/
def Obligations.FpcondPrivate : Prop :=
  ∀ (i : Instr) (s : State) (b : Bool),
    ¬ (opField (encode i) = 0x11 ∧ fmtField (encode i) = 0x08) →
    ¬ (opField (encode i) = 0x11 ∧ 0x30 ≤ (functField (encode i)).toNat ∧
        (fmtField (encode i) = 0x10 ∨ fmtField (encode i) = 0x11)) →
    exec i (s.setFpcond b) = onNext (fun t => t.setFpcond b) (exec i s)

/-! ## System instructions -/

/-- R176, R37, R325: `mfc0` reads Status and Cause in kernel mode, is refused there for any other number, and takes CpU in
user mode (decisions D6, D19, D20 of the spec). -/
def Obligations.ControlRegisterRead : Prop :=
  ∀ (rt rd : RegNum) (s : State),
    let kernel : Prop := s.um = false ∨ s.el = true
    (kernel → Completes (.mfc0 rt 12) s { gprs := [rt] } fun t => t.x rt = afterWrite rt s.status) ∧
    (kernel → Completes (.mfc0 rt 13) s { gprs := [rt] } fun t => t.x rt = afterWrite rt s.cause) ∧
    (kernel → rd ≠ 12 → rd ≠ 13 → exec (.mfc0 rt rd) s = .refused .unknownControlRegister) ∧
    (¬ kernel → Takes (.mfc0 rt rd) s .cpU (encode (.mfc0 rt rd)))

/-- R254, R255, R305, R306, R320: `syscall` and `break` always take Sys and Bp, which is their whole effect (decision D2 of
the spec). -/
def Obligations.SystemCallAndBreak : Prop :=
  ∀ (code : BitVec 20) (s : State),
    Takes (.syscall code) s .sys (encode (.syscall code)) ∧ Takes (.brk code) s .bp (encode (.brk code))

/-- R260 to R266, R310: a conditional trap takes Tr when its condition holds and does nothing when it does not. Under
`MAP_ONLY = general-knowledge`, the model's choice (notes/assumptions/7.md). -/
def Obligations.ConditionalTraps : Prop :=
  ∀ (rs rt : RegNum) (code : BitVec 10) (s : State),
    let traps (i : Instr) (condition : Prop) : Prop :=
      (condition → Takes i s .tr (encode i)) ∧ (¬ condition → Completes i s {} fun _ => True)
    traps (.tge rs rt code) ((s.x rt).toInt ≤ (s.x rs).toInt) ∧
    traps (.tgeu rs rt code) ((s.x rt).toNat ≤ (s.x rs).toNat) ∧
    traps (.tlt rs rt code) ((s.x rs).toInt < (s.x rt).toInt) ∧
    traps (.tltu rs rt code) ((s.x rs).toNat < (s.x rt).toNat) ∧
    traps (.teq rs rt code) (s.x rs = s.x rt) ∧
    traps (.tne rs rt code) (s.x rs ≠ s.x rt)

/-- R245, R256: `pref` and `sync` change nothing but the program counters, whatever the address. Under
`MAP_ONLY = general-knowledge`, the model's choice (notes/assumptions/7.md). -/
def Obligations.NoOperations : Prop :=
  ∀ (rs rt : RegNum) (imm : Half) (s : State),
    Completes (.pref rs rt imm) s {} (fun _ => True) ∧ Completes .sync s {} (fun _ => True)

/-- R242, R243, R244, R246, R247, R281, R282: the instructions the spec refuses under every parameter are refused from every
state (decision D25 of the spec). -/
def Obligations.AlwaysRefused : Prop :=
  ∀ (rs rt : RegNum) (imm : Half) (s : State),
    exec (.cache rs rt imm) s = .refused .noCache ∧
    exec (.lwc2 rs rt imm) s = .refused .noCoprocessor2 ∧ exec (.ldc2 rs rt imm) s = .refused .noCoprocessor2 ∧
    exec (.swc2 rs rt imm) s = .refused .noCoprocessor2 ∧ exec (.sdc2 rs rt imm) s = .refused .noCoprocessor2 ∧
    exec (.cvtSS rs rt) s = .refused .convertToSameFormat ∧ exec (.cvtDD rs rt) s = .refused .convertToSameFormat

/-! ## Floating point -/

/-- R188, R189, R191, R193, R195: the single-precision operations deliver their result to `f[fd]` from any registers, a NaN
result as any NaN, and change nothing else (decision D10 of the spec; the NaN's draw is notes/assumptions/6.md). -/
def Obligations.FpArithmeticSingle : Prop :=
  ∀ (ft fs fd : RegNum) (s : State),
    let a := single (s.f fs)
    let b := single (s.f ft)
    let what : Footprint := { fprs := [fd], draws := true }
    Completes (.addS ft fs fd) s what (fun t => SingleIs (Fmt.single.add a b) (t.f fd)) ∧
    Completes (.subS ft fs fd) s what (fun t => SingleIs (Fmt.single.sub a b) (t.f fd)) ∧
    Completes (.mulS ft fs fd) s what (fun t => SingleIs (Fmt.single.mul a b) (t.f fd)) ∧
    Completes (.divS ft fs fd) s what (fun t => SingleIs (Fmt.single.div a b) (t.f fd))

/-- R32, R188, R190, R192, R194, R196: the double-precision operations, from even registers, likewise; an odd register
number is refused (decisions D10, D11 of the spec; the NaN's draw is notes/assumptions/6.md). -/
def Obligations.FpArithmeticDouble : Prop :=
  ∀ (ft fs fd : RegNum) (s : State),
    let a := double (s.d fs)
    let b := double (s.d ft)
    let what : Footprint := { fprs := [fd, fd + 1], draws := true }
    (ft.toNat % 2 = 0 → fs.toNat % 2 = 0 → fd.toNat % 2 = 0 →
      Completes (.addD ft fs fd) s what (fun t => DoubleIs (Fmt.double.add a b) (t.d fd)) ∧
      Completes (.subD ft fs fd) s what (fun t => DoubleIs (Fmt.double.sub a b) (t.d fd)) ∧
      Completes (.mulD ft fs fd) s what (fun t => DoubleIs (Fmt.double.mul a b) (t.d fd)) ∧
      Completes (.divD ft fs fd) s what (fun t => DoubleIs (Fmt.double.div a b) (t.d fd))) ∧
    (ft.toNat % 2 = 1 ∨ fs.toNat % 2 = 1 ∨ fd.toNat % 2 = 1 →
      ∀ i ∈ [Instr.addD ft fs fd, .subD ft fs fd, .mulD ft fs fd, .divD ft fs fd],
        exec i s = .refused .oddDoubleRegister)

/-- R271 to R274, R279, R280: square root, absolute value, negation and the moves of both formats, the conditional ones on a
general register. Under `MAP_ONLY = general-knowledge`, the model's choice (notes/assumptions/7.md). -/
def Obligations.FpUnaryAndMoves : Prop :=
  ∀ (rt fs fd : RegNum) (s : State),
    let one : Footprint := { fprs := [fd], draws := true }
    let two : Footprint := { fprs := [fd, fd + 1], draws := true }
    let a := s.f fs
    let b := s.d fs
    (Completes (.sqrtS fs fd) s one (fun t => SingleIs (Fmt.single.sqrt (single a)) (t.f fd)) ∧
      Completes (.absS fs fd) s one (fun t =>
        if Fmt.single.classOf a.toNat = .nan then Fmt.single.classOf (t.f fd).toNat = .nan
        else t.f fd = a &&& 0x7FFFFFFF) ∧
      Completes (.negS fs fd) s one (fun t =>
        if Fmt.single.classOf a.toNat = .nan then Fmt.single.classOf (t.f fd).toNat = .nan
        else t.f fd = a ^^^ 0x80000000) ∧
      Completes (.movS fs fd) s { fprs := [fd] } (fun t => t.f fd = a) ∧
      Completes (.movzS rt fs fd) s { fprs := [fd] } (fun t => t.f fd = if s.x rt = 0 then a else s.f fd) ∧
      Completes (.movnS rt fs fd) s { fprs := [fd] } (fun t => t.f fd = if s.x rt = 0 then s.f fd else a)) ∧
    (fs.toNat % 2 = 0 → fd.toNat % 2 = 0 →
      Completes (.sqrtD fs fd) s two (fun t => DoubleIs (Fmt.double.sqrt (double b)) (t.d fd)) ∧
      Completes (.absD fs fd) s two (fun t =>
        if Fmt.double.classOf b.toNat = .nan then Fmt.double.classOf (t.d fd).toNat = .nan
        else t.d fd = b &&& 0x7FFFFFFFFFFFFFFF) ∧
      Completes (.negD fs fd) s two (fun t =>
        if Fmt.double.classOf b.toNat = .nan then Fmt.double.classOf (t.d fd).toNat = .nan
        else t.d fd = b ^^^ 0x8000000000000000) ∧
      Completes (.movD fs fd) s { fprs := [fd, fd + 1] } (fun t => t.d fd = b) ∧
      Completes (.movzD rt fs fd) s { fprs := [fd, fd + 1] } (fun t => t.d fd = if s.x rt = 0 then b else s.d fd) ∧
      Completes (.movnD rt fs fd) s { fprs := [fd, fd + 1] } (fun t => t.d fd = if s.x rt = 0 then s.d fd else b)) ∧
    (fs.toNat % 2 = 1 ∨ fd.toNat % 2 = 1 →
      ∀ i ∈ [Instr.sqrtD fs fd, .absD fs fd, .negD fs fd, .movD fs fd, .movzD rt fs fd, .movnD rt fs fd],
        exec i s = .refused .oddDoubleRegister)

/-- R270, R275 to R278, R283: the conversions to a 32-bit integer write `f[fd]`, with the integer the rounding gives, or any
word where it gives none. Under `MAP_ONLY = general-knowledge`, the model's choice (notes/assumptions/7.md); the word is a
free value (notes/assumptions/6.md). -/
def Obligations.FpToInteger : Prop :=
  ∀ (fs fd : RegNum) (s : State),
    let converts (i : Instr) (f : Fmt) (v : FpVal) (mode : Rounding) : Prop :=
      Completes i s { fprs := [fd], draws := true } fun t => ∀ n, f.toInt32 mode v = some n → t.f fd = n
    let a := single (s.f fs)
    let b := double (s.d fs)
    (converts (.roundWS fs fd) .single a .nearestEven ∧ converts (.truncWS fs fd) .single a .towardZero ∧
      converts (.ceilWS fs fd) .single a .towardPlus ∧ converts (.floorWS fs fd) .single a .towardMinus ∧
      converts (.cvtWS fs fd) .single a .nearestEven) ∧
    (fs.toNat % 2 = 0 →
      converts (.roundWD fs fd) .double b .nearestEven ∧ converts (.truncWD fs fd) .double b .towardZero ∧
      converts (.ceilWD fs fd) .double b .towardPlus ∧ converts (.floorWD fs fd) .double b .towardMinus ∧
      converts (.cvtWD fs fd) .double b .nearestEven) ∧
    (fs.toNat % 2 = 1 →
      ∀ i ∈ [Instr.roundWD fs fd, .truncWD fs fd, .ceilWD fs fd, .floorWD fs fd, .cvtWD fs fd],
        exec i s = .refused .oddDoubleRegister)

/-- R270 (c), R275 to R278: the integer a value converts to is the value rounded in the named direction, exactly when that
fits 32 signed bits, and there is none for an infinity or a NaN. Under `MAP_ONLY = general-knowledge`, the model's choice
(notes/assumptions/7.md). -/
def Obligations.IntegerRounding : Prop :=
  ∀ (f : Fmt) (mode : Rounding) (v : FpVal),
    (v.rat f = none → f.toInt32 mode v = none) ∧
    ∀ q, v.rat f = some q → ∃ n : Int, Rounded mode q n ∧
      f.toInt32 mode v = if -2 ^ 31 ≤ n ∧ n ≤ 2 ^ 31 - 1 then some (BitVec.ofInt 32 n) else none

/-- R281, R282: `cvt.s.d` rounds once to single, an infinity or NaN to that of the single format; `cvt.d.s` keeps the value
and the sign of every number exactly, zeros among them, and its class otherwise.
Under `MAP_ONLY = general-knowledge`, the model's choice (notes/assumptions/7.md). -/
def Obligations.FpBetweenFormats : Prop :=
  (∀ (fs fd : RegNum) (s : State),
    (fs.toNat % 2 = 0 → Completes (.cvtSD fs fd) s { fprs := [fd], draws := true } fun t =>
      SingleIs (doubleToSingle (double (s.d fs))) (t.f fd)) ∧
    (fs.toNat % 2 = 1 → exec (.cvtSD fs fd) s = .refused .oddDoubleRegister) ∧
    (fd.toNat % 2 = 0 → Completes (.cvtDS fs fd) s { fprs := [fd, fd + 1], draws := true } fun t =>
      (single (s.f fs)).rat .single = (double (t.d fd)).rat .double ∧
      (∀ neg mag, single (s.f fs) = .fin neg mag → double (t.d fd) = .fin neg (mag * 2 ^ (1074 - 149))) ∧
      (single (s.f fs) = .nan → double (t.d fd) = .nan) ∧
      ∀ neg, single (s.f fs) = .inf neg → double (t.d fd) = .inf neg) ∧
    (fd.toNat % 2 = 1 → exec (.cvtDS fs fd) s = .refused .oddDoubleRegister)) ∧
  doubleToSingle .nan = .nan ∧
  ∀ (neg : Bool) (mag : Nat),
    doubleToSingle (.inf neg) = Fmt.single.infinity neg ∧
    doubleToSingle (.fin neg mag) = Fmt.single.round neg mag (2 ^ (1074 - 149))

/-- R197 to R203: the six compares of the source write `fpcond` and nothing else, false on a NaN (decision D10 of the
spec); an odd register number of a double is refused (D11). -/
def Obligations.FpCompares : Prop :=
  ∀ (ft fs : RegNum) (s : State),
    let r := compareFp (single (s.f fs)) (single (s.f ft))
    let q := compareFp (double (s.d fs)) (double (s.d ft))
    let what : Footprint := { fpcond := true }
    (Completes (.cEqS ft fs) s what (fun t => t.fpcond = decide (r = .equal)) ∧
      Completes (.cLtS ft fs) s what (fun t => t.fpcond = decide (r = .less)) ∧
      Completes (.cLeS ft fs) s what (fun t => t.fpcond = decide (r = .less ∨ r = .equal))) ∧
    (ft.toNat % 2 = 0 → fs.toNat % 2 = 0 →
      Completes (.cEqD ft fs) s what (fun t => t.fpcond = decide (q = .equal)) ∧
      Completes (.cLtD ft fs) s what (fun t => t.fpcond = decide (q = .less)) ∧
      Completes (.cLeD ft fs) s what (fun t => t.fpcond = decide (q = .less ∨ q = .equal))) ∧
    (ft.toNat % 2 = 1 ∨ fs.toNat % 2 = 1 →
      ∀ i ∈ [Instr.cEqD ft fs, .cLtD ft fs, .cLeD ft fs], exec i s = .refused .oddDoubleRegister)

/-- R284 to R297: the thirteen other conditions, in both formats. Under `MAP_ONLY = general-knowledge`, the model's choice
(notes/assumptions/7.md). -/
def Obligations.MapOnlyCompares : Prop :=
  ∀ (ft fs : RegNum) (s : State),
    let sets (r : FpRelation) (i : Instr) (holds : FpRelation → Bool) : Prop :=
      Completes i s { fpcond := true } fun t => t.fpcond = holds r
    let never (_ : FpRelation) : Bool := false
    let un (r : FpRelation) : Bool := decide (r = .unordered)
    let eq (r : FpRelation) : Bool := decide (r = .equal)
    let ueq (r : FpRelation) : Bool := decide (r = .equal ∨ r = .unordered)
    let lt (r : FpRelation) : Bool := decide (r = .less)
    let ult (r : FpRelation) : Bool := decide (r = .less ∨ r = .unordered)
    let le (r : FpRelation) : Bool := decide (r = .less ∨ r = .equal)
    let ule (r : FpRelation) : Bool := decide (r ≠ .greater)
    let r := compareFp (single (s.f fs)) (single (s.f ft))
    let q := compareFp (double (s.d fs)) (double (s.d ft))
    (sets r (.cFS ft fs) never ∧ sets r (.cUnS ft fs) un ∧ sets r (.cUeqS ft fs) ueq ∧ sets r (.cOltS ft fs) lt ∧
      sets r (.cUltS ft fs) ult ∧ sets r (.cOleS ft fs) le ∧ sets r (.cUleS ft fs) ule ∧ sets r (.cSfS ft fs) never ∧
      sets r (.cNgleS ft fs) un ∧ sets r (.cSeqS ft fs) eq ∧ sets r (.cNglS ft fs) ueq ∧ sets r (.cNgeS ft fs) ult ∧
      sets r (.cNgtS ft fs) ule) ∧
    (ft.toNat % 2 = 0 → fs.toNat % 2 = 0 →
      sets q (.cFD ft fs) never ∧ sets q (.cUnD ft fs) un ∧ sets q (.cUeqD ft fs) ueq ∧ sets q (.cOltD ft fs) lt ∧
      sets q (.cUltD ft fs) ult ∧ sets q (.cOleD ft fs) le ∧ sets q (.cUleD ft fs) ule ∧ sets q (.cSfD ft fs) never ∧
      sets q (.cNgleD ft fs) un ∧ sets q (.cSeqD ft fs) eq ∧ sets q (.cNglD ft fs) ueq ∧ sets q (.cNgeD ft fs) ult ∧
      sets q (.cNgtD ft fs) ule) ∧
    (ft.toNat % 2 = 1 ∨ fs.toNat % 2 = 1 →
      ∀ i ∈ [Instr.cFD ft fs, .cUnD ft fs, .cUeqD ft fs, .cOltD ft fs, .cUltD ft fs, .cOleD ft fs, .cUleD ft fs,
          .cSfD ft fs, .cNgleD ft fs, .cSeqD ft fs, .cNglD ft fs, .cNgeD ft fs, .cNgtD ft fs],
        exec i s = .refused .oddDoubleRegister)

/-- R203, R297: the relation of two values is the order of the numbers, -0 equal to +0, the infinities outside every finite
value, and unordered exactly when a NaN is there (the NaN's case is decision D10 of the spec). -/
def Obligations.CompareRelation : Prop :=
  ∀ (f : Fmt) (a b : FpVal),
    (compareFp a b = .unordered ↔ a = .nan ∨ b = .nan) ∧
    (∀ p q, a.rat f = some p → b.rat f = some q →
      (compareFp a b = .less ↔ p < q) ∧ (compareFp a b = .equal ↔ p = q) ∧ (compareFp a b = .greater ↔ q < p)) ∧
    (∀ q, b.rat f = some q → compareFp (.inf true) b = .less ∧ compareFp (.inf false) b = .greater ∧
      compareFp b (.inf true) = .greater ∧ compareFp b (.inf false) = .less) ∧
    compareFp (.inf true) (.inf false) = .less ∧ compareFp (.inf false) (.inf true) = .greater ∧
    (∀ neg, compareFp (.inf neg) (.inf neg) = .equal)

/-- R188 (a), (b): rounding picks a nearest representable value, the even pattern on a tie, infinity exactly from half a
unit above the largest finite value on, and flushes no denormal (round to nearest even is decision D10 of the spec). -/
def Obligations.RoundsToNearestEven : Prop :=
  ∀ (f : Fmt) (num den : Nat), 0 < den →
    let q : ℚ := num / den
    let p := f.roundMag num den
    (p = f.infMag ↔ ((2 : ℚ) ^ (f.fracBits + 2) - 1) * 2 ^ (f.expMax - 3) ≤ q) ∧
    (p ≠ f.infMag → p < f.infMag ∧
      ∃ m, f.value p = .fin false m ∧
        ∀ p' m', f.value p' = .fin false m' →
          |(m : ℚ) - q| ≤ |(m' : ℚ) - q| ∧ (|(m : ℚ) - q| = |(m' : ℚ) - q| → m ≠ m' → p % 2 = 0))

/-- R185 to R187, R188 (a) to (e): the class and value of every pattern by its fields, the special operands of the four
operations, the signs of zeros, products and quotients, and that every other result is the exact one rounded once (decision
D10 of the spec; that of a denormal is its value from general knowledge, R187). -/
def Obligations.FpSpecialValues : Prop :=
  let reads (c : FpClass) (v : FpVal) (neg : Bool) (e frac max bits : Nat) (bias : ℤ) (unit : Nat) : Prop :=
    (e = 0 → c = if frac = 0 then .zero else .denorm) ∧
    (e = max → c = if frac = 0 then .infinity else .nan) ∧
    (0 < e → e < max → c = .normal) ∧
    (e = max → v = if frac = 0 then .inf neg else .nan) ∧
    (e < max → ∃ m, v = .fin neg m ∧ (m : ℚ) / 2 ^ unit =
      if e = 0 then (frac : ℚ) / 2 ^ bits * 2 ^ (1 - bias) else (1 + (frac : ℚ) / 2 ^ bits) * 2 ^ ((e : ℤ) - bias))
  (∀ w : Word, reads (Fmt.single.classOf w.toNat) (single w) (w.getLsbD 31) (w.extractLsb' 23 8).toNat
    (w.extractLsb' 0 23).toNat 255 23 127 149) ∧
  (∀ w : BitVec 64, reads (Fmt.double.classOf w.toNat) (double w) (w.getLsbD 63) (w.extractLsb' 52 11).toNat
    (w.extractLsb' 0 52).toNat 2047 52 1023 1074) ∧
  (∀ (a : Bool) (p : Nat), Fmt.single.infMag = 0x7F800000 ∧ Fmt.double.infMag = 0x7FF0000000000000 ∧
    Fmt.single.pattern a p = .bits ((if a then 0x80000000 else 0) + p) ∧
    Fmt.double.pattern a p = .bits ((if a then 0x8000000000000000 else 0) + p)) ∧
  ∀ (f : Fmt) (a b : Bool) (m n : Nat) (v : FpVal),
    (f.add .nan v = .nan ∧ f.add v .nan = .nan ∧ f.sub .nan v = .nan ∧ f.sub v .nan = .nan ∧ f.mul .nan v = .nan ∧
      f.mul v .nan = .nan ∧ f.div .nan v = .nan ∧ f.div v .nan = .nan) ∧
    (f.add (.inf a) (.inf !a) = .nan ∧ f.sub (.inf a) (.inf a) = .nan ∧ f.mul (.fin a 0) (.inf b) = .nan ∧
      f.mul (.inf a) (.fin b 0) = .nan ∧ f.div (.fin a 0) (.fin b 0) = .nan ∧ f.div (.inf a) (.inf b) = .nan) ∧
    (f.add (.inf a) (.inf a) = f.infinity a ∧ f.sub (.inf a) (.inf !a) = f.infinity a ∧
      f.mul (.inf a) (.inf b) = f.infinity (a != b) ∧ f.add (.inf a) (.fin b n) = f.infinity a ∧
      f.add (.fin a m) (.inf b) = f.infinity b ∧ f.sub (.inf a) (.fin b n) = f.infinity a ∧
      f.sub (.fin a m) (.inf b) = f.infinity !b ∧ f.div (.inf a) (.fin b n) = f.infinity (a != b) ∧
      f.div (.fin a m) (.inf b) = f.pattern (a != b) 0) ∧
    (0 < m → f.mul (.fin a m) (.inf b) = f.infinity (a != b) ∧ f.mul (.inf b) (.fin a m) = f.infinity (a != b) ∧
      f.div (.fin a m) (.fin b 0) = f.infinity (a != b) ∧ f.add (.fin a m) (.fin (!a) m) = f.pattern false 0) ∧
    (f.sub (.fin a m) (.fin a m) = f.pattern false 0 ∧ f.add (.fin a 0) (.fin a 0) = f.pattern a 0 ∧
      f.add (.fin a 0) (.fin (!a) 0) = f.pattern false 0 ∧ f.sub (.fin a 0) (.fin (!a) 0) = f.pattern a 0) ∧
    (signed a m + signed b n ≠ 0 → f.add (.fin a m) (.fin b n) =
      f.pattern (decide (signed a m + signed b n < 0)) (f.roundMag (signed a m + signed b n).natAbs 1)) ∧
    (signed a m - signed b n ≠ 0 → f.sub (.fin a m) (.fin b n) =
      f.pattern (decide (signed a m - signed b n < 0)) (f.roundMag (signed a m - signed b n).natAbs 1)) ∧
    f.mul (.fin a m) (.fin b n) = f.pattern (a != b) (f.roundMag (m * n) (2 ^ f.unitExp)) ∧
    (0 < n → f.div (.fin a m) (.fin b n) = f.pattern (a != b) (f.roundMag (m * 2 ^ f.unitExp) n))

/-- R271: the square root of a positive number is a finite pattern nearest to the exact root, in units of the format; of a
zero it is that zero, of +∞ it is +∞, of every other negative operand and of a NaN a NaN. Under `MAP_ONLY =
general-knowledge`, the model's choice (notes/assumptions/7.md). -/
def Obligations.SquareRootIsNearest : Prop :=
  ∀ f : Fmt,
    (∀ neg, f.sqrt (.fin neg 0) = f.pattern neg 0) ∧ f.sqrt (.inf false) = f.infinity false ∧
    f.sqrt (.inf true) = .nan ∧ f.sqrt .nan = .nan ∧ (∀ m, 0 < m → f.sqrt (.fin true m) = .nan) ∧
    ∀ bits m : Nat, f.value bits = .fin false m → 0 < m →
      ∃ r, f.sqrt (.fin false m) = f.pattern false (f.sqrtMag m) ∧ f.value (f.sqrtMag m) = .fin false r ∧
        ∀ p' r', f.value p' = .fin false r' →
          |(r : ℝ) - Real.sqrt ((m : ℝ) * 2 ^ f.unitExp)| ≤ |(r' : ℝ) - Real.sqrt ((m : ℝ) * 2 ^ f.unitExp)|

/-! ## The step -/

/-- R27 steps 5 to 9: outside the end of the run and with no interrupt, a step runs exactly the instruction whose bytes
stand at `pc`, most significant first, on the state with the lines sampled; sampling changes Cause's IP and the step number
alone. That Cause.IP follows the lines is decision D21 of the spec; that every step samples them at its start and then counts
on is the model's reading (notes/assumptions/5.md). -/
def Obligations.StepRunsDecoded : Prop :=
  ∀ (s : State) (i : Instr), s.outcome = .running → s.endPc ≠ some s.pc ∨ s.inDelay = true →
    s.sampleIrq.interruptCondition = false → s.pc.toNat % 4 = 0 → Allowed s .fetch s.pc 4 →
    decodeBytes [s.mem.read s.pc, s.mem.read (s.pc + 1), s.mem.read (s.pc + 2), s.mem.read (s.pc + 3)] = .ok i →
    step s = exec i s.sampleIrq ∧ Changes {} s { s.sampleIrq with stepNo := s.stepNo } ∧
      s.sampleIrq.stepNo = s.stepNo + 1 ∧ s.sampleIrq.ip = s.irqNow ∧
      s.sampleIrq.cause &&& 0xFFFF00FF = s.cause &&& 0xFFFF00FF ∧ s.sampleIrq.status = s.status ∧
      s.sampleIrq.outcome = s.outcome ∧
      (s.sampleIrq.pc = s.pc ∧ s.sampleIrq.npc = s.npc ∧ s.sampleIrq.inDelay = s.inDelay)

/-- R27 steps 3, 4, 6, R70, R303, R307, R315: what the fetch raises, in the order of the checks: AdEL before IBE before RI
(decisions D4, D15, D17, D23 of the spec). That one byte of the four not executable is enough for IBE is the model's reading
(notes/assumptions/12.md): R27 speaks of `pc`. -/
def Obligations.FetchExceptions : Prop :=
  ∀ s : State, s.outcome = .running → s.endPc ≠ some s.pc ∨ s.inDelay = true →
    s.sampleIrq.interruptCondition = false →
    let takes (e : Exc) (info : Word) : Prop := ∃ t, step s = .next t ∧ Entered e info s.sampleIrq t
    (s.pc.toNat % 4 ≠ 0 → takes .adEL s.pc) ∧
    (s.pc.toNat % 4 = 0 → ¬ Allowed s .fetch s.pc 4 → takes .ibe s.pc) ∧
    (s.pc.toNat % 4 = 0 → Allowed s .fetch s.pc 4 → (∀ i, decode (s.mem.readWord s.pc) ≠ .ok i) →
      takes .ri (s.mem.readWord s.pc))

/-- R311, R313, R315: an enabled, unmasked pending line outside exception level is taken before anything of the instruction,
with the lines as `info`; with interrupts disabled, at exception level, or with every pending line masked, none is (the
formula is decision D21 of the spec). -/
def Obligations.Interrupts : Prop :=
  ∀ s : State, s.outcome = .running → s.endPc ≠ some s.pc ∨ s.inDelay = true →
    (s.ie = true → s.el = false → s.irqNow &&& s.im ≠ 0 →
      ∃ t, step s = .next t ∧ Entered .int (s.irqNow.setWidth 32) s.sampleIrq t ∧ t.ip = s.irqNow) ∧
    (s.ie = false ∨ s.el = true ∨ s.irqNow &&& s.im = 0 →
      ∀ t, step s = .next t → ∀ pc bd info, t.outcome ≠ .faulted 0 pc bd info)

/-- R27 steps 0, 1, R346: reaching `END_PC` outside a delay slot ends the run with nothing fetched and nothing changed but
the outcome, Cause's IP and the step number; after any end there is no step. `END_PC` is decision D26 of the spec; that the
ending step too samples the lines is the model's reading (notes/assumptions/5.md), that no step is the fault `runIsOver` its
choice (notes/assumptions/8.md). -/
def Obligations.EndOfRun : Prop :=
  ∀ s : State,
    (s.outcome = .running → s.endPc = some s.pc → s.inDelay = false →
      ∃ t, step s = .next t ∧ t.outcome = .ended ∧ Changes {} s { t with stepNo := s.stepNo } ∧ t.status = s.status ∧
        t.cause &&& 0xFFFF00FF = s.cause &&& 0xFFFF00FF ∧ t.ip = s.irqNow ∧ t.stepNo = s.stepNo + 1 ∧
        t.pc = s.pc ∧ t.npc = s.npc ∧ t.inDelay = false) ∧
    (s.outcome ≠ .running → step s = .fault .runIsOver)

/-! ## The whole machine -/

/-- R45, R340: the launch values the spec gives (decisions D1, D3, D8, D20 of the spec). The values it leaves unspecified are
the model's choice (notes/assumptions/1.md) and no part of this statement. -/
def Obligations.LaunchState : Prop :=
  State.reset.x 0 = 0 ∧ State.reset.x 28 = 0x10008000 ∧ State.reset.x 29 = 0x7FFFFFFC ∧
  State.reset.pc = 0x00400000 ∧ State.reset.npc = 0x00400004 ∧ State.reset.inDelay = false ∧
  State.reset.status = 0x00000010 ∧ State.reset.cause = 0 ∧ State.reset.llbit = false ∧
  State.reset.outcome = .running ∧ State.reset.um = true ∧ State.reset.ie = false ∧ State.reset.el = false ∧
  State.reset.im = 0 ∧ State.reset.kernelMode = false

/-- The invariant holds at launch. -/
def Obligations.LaunchInvariant : Prop := State.reset.Inv

/-- R21, R25, R35, R36, R38, R41, R60, R320: every step keeps the invariant, from every state that has it. The clauses on
`npc`, Cause, Status and the reservation rest on decisions D1, D7, D8, D2 of the spec, the form of memory on the model's
choice (notes/assumptions/2.md). -/
def Obligations.StepKeepsInvariant : Prop :=
  ∀ s t : State, s.Inv → step s = .next t → t.Inv

/-- R27, R320, R34, R148: an instruction that answers a next state has either kept Cause, Status and the outcome, or taken an
exception with everything else as it was; so exceptions are precise and nothing else writes the control registers (decision
D2 of the spec). -/
def Obligations.PreciseExceptions : Prop :=
  ∀ (i : Instr) (s t : State), exec i s = .next t →
    (ControlKept s t ∧ (Straight s t ∨ (s.inDelay = false ∧ ∃ target, Branched target s t))) ∨
    ∃ e info, e ≠ .fpe ∧ e ≠ .int ∧ e ≠ .ibe ∧ e ≠ .ri ∧ Entered e info s t

/-- R36, R321, R325: no step changes UM, IM or IE, and EL is only ever set, by a step that ends the run: the mode of a run is
the one it was launched in (decisions D2, D20 of the spec). -/
def Obligations.ModeIsFixed : Prop :=
  ∀ s t : State, step s = .next t →
    t.um = s.um ∧ t.im = s.im ∧ t.ie = s.ie ∧ (s.el = true → t.el = true) ∧
    (t.outcome = .running → t.kernelMode = s.kernelMode ∧ t.status = s.status)

/-- R73, R82, R353: a step changes only bytes the map allows to be written, never the map; so under any map within the
decided one no byte of text is ever changed (decisions D15, D16 of the spec). -/
def Obligations.TextIsImmutable : Prop :=
  ∀ s t : State, step s = .next t →
    t.memMap = s.memMap ∧ (∀ a, t.mem.read a ≠ s.mem.read a → mapped s.memMap .write a = true) ∧
    (Narrows s.memMap → ∀ a, a.toNat < 0x10000000 ∨ 0x80000000 ≤ a.toNat → t.mem.read a = s.mem.read a)

/-- R32, R37, R82, R141, R159, R251: a well-formed instruction is refused only for what the state holds: a transfer in a
delay slot, a store into text, an `sc` to another address (decisions D8, D16, D18 of the spec; that the map-only ones are not
refused is the model's choice, notes/assumptions/7.md). -/
def Obligations.RefusalsOfWellFormed : Prop :=
  ∀ (i : Instr) (s : State) (r : Refusal), i.wellFormed = true → exec i s = .refused r →
    (r = .controlTransferInDelaySlot ∧ s.inDelay = true ∧ i.isTransfer = true) ∨
    (r = .storeIntoText ∧ ∃ rs rt imm, 0x00400000 ≤ (s.ea rs imm).toNat ∧ (s.ea rs imm).toNat ≤ 0x0FFFFFFF ∧
      i ∈ [.sb rs rt imm, .sh rs rt imm, .sw rs rt imm, .sc rs rt imm, .swc1 rs rt imm, .sdc1 rs rt imm,
        .swl rs rt imm, .swr rs rt imm]) ∨
    (r = .scAddressMismatch ∧ s.llbit = true ∧ ∃ rs rt imm, i = .sc rs rt imm ∧ s.lladdr ≠ s.ea rs imm)

/-- R23, R31, R32: a general register that an instruction changes is the one its word names as destination (`rt` of the
immediate forms, loads, `sc` and `mfc0`, `rd` of the R forms), or the link register of `jal`; a floating-point register is
the `ft` of a load or the `fd` of an operation, or the odd half after it where the result is a double. The map-only ones rest
on notes/assumptions/7.md. -/
def Obligations.OnlyNamedRegistersChange : Prop :=
  ∀ (i : Instr) (s t : State) (r : RegNum), exec i s = .next t →
    let w := encode i
    let op := (opField w).toNat
    let fmt := (fmtField w).toNat
    let funct := (functField w).toNat
    (t.x r ≠ s.x r →
      (r = rtField w ∧ op ∈ [0x08, 0x09, 0x0A, 0x0B, 0x0C, 0x0D, 0x0E, 0x0F, 0x10, 0x20, 0x21, 0x22, 0x23, 0x24, 0x25,
        0x26, 0x30, 0x38]) ∨
      (r = rdField w ∧ op = 0 ∧ funct ∈ [0x00, 0x02, 0x03, 0x04, 0x06, 0x07, 0x09, 0x0A, 0x0B, 0x10, 0x12, 0x20, 0x21,
        0x22, 0x23, 0x24, 0x25, 0x26, 0x27, 0x2A, 0x2B]) ∨
      (r = 31 ∧ ∃ addr, i = .jal addr)) ∧
    (t.f r ≠ s.f r →
      (op = 0x31 ∧ r = rtField w) ∨
      (op = 0x35 ∧ (r = rtField w ∨ r = rtField w + 1)) ∨
      (op = 0x11 ∧ (fmt = 0x10 ∨ fmt = 0x11) ∧ funct < 0x30 ∧
        (r = fdField w ∨
          (r = fdField w + 1 ∧ ((fmt = 0x11 ∧ funct ∉ [0x0C, 0x0D, 0x0E, 0x0F, 0x20, 0x24]) ∨
            (fmt = 0x10 ∧ funct = 0x21))))))

/-! ## Pseudo-instructions -/

/-- R220 to R226: run one after another, the words of a branch pseudo-instruction branch on the signed comparison its name
says and leave 1 or 0 in register 1; those of `li` and `move` write their operand. The expansions are decision D30 of the
spec. -/
def Obligations.PseudoExpansions : Prop :=
  ∀ (rs rt rd : RegNum) (imm : Half) (v : Word) (s : State),
    let a := (s.x rs).toInt
    let b := (s.x rt).toInt
    let branches (p : Pseudo) (taken : Bool) (flag : Bool) : Prop :=
      ∃ t, runList p.expand s = .next t ∧ Changes { gprs := [1] } s t ∧ t.pc = s.npc + 4 ∧ t.inDelay = true ∧
        t.npc = (if taken then BitVec.ofInt 32 (s.npc.toInt + 4 + 4 * imm.toInt) else s.npc + 8) ∧
        t.x 1 = if flag then 1 else 0
    branches (.blt rs rt imm) (decide (a < b)) (decide (a < b)) ∧
    branches (.bgt rs rt imm) (decide (b < a)) (decide (b < a)) ∧
    branches (.ble rs rt imm) (decide (a ≤ b)) (decide (b < a)) ∧
    branches (.bge rs rt imm) (decide (b ≤ a)) (decide (a < b)) ∧
    (∃ t, runList (Pseudo.li rd v).expand s = .next t ∧ t.x rd = afterWrite rd v ∧ Changes { gprs := [rd] } s t) ∧
    (∃ t, runList (Pseudo.move rd rs).expand s = .next t ∧ t.x rd = afterWrite rd (s.x rs) ∧
      Changes { gprs := [rd] } s t)
end

