-- ==== Sys2Proof/Laws/Encoding.lean ====
section
/-! SUPPORT. The fields of an encoded word, and a word as its fields: what the round trips of decode and encode cite. -/

namespace Sys2Proof

set_option Elab.async false

/-! ## A word as its bit patterns (R90 to R94, R254, R255, R266) -/

theorem rWord_eq (op : BitVec 6) (rs rt rd : RegNum) (shamt : BitVec 5) (funct : BitVec 6) :
    rWord op rs rt rd shamt funct = op ++ rs ++ rt ++ rd ++ shamt ++ funct := by
  apply BitVec.eq_of_getLsbD_eq
  intro i hi
  simp only [rWord]
  repeat rw [BitVec.getLsbD_append]
  interval_cases i <;> simp [place]

theorem iWord_eq (op : BitVec 6) (rs rt : RegNum) (imm : Half) :
    iWord op rs rt imm = op ++ rs ++ rt ++ imm := by
  apply BitVec.eq_of_getLsbD_eq
  intro i hi
  simp only [iWord]
  repeat rw [BitVec.getLsbD_append]
  interval_cases i <;> simp [place]

theorem jWord_eq (op : BitVec 6) (addr : BitVec 26) :
    jWord op addr = op ++ addr := by
  apply BitVec.eq_of_getLsbD_eq
  intro i hi
  simp only [jWord]
  repeat rw [BitVec.getLsbD_append]
  interval_cases i <;> simp [place]

theorem codeWord_eq (code : BitVec 20) (funct : BitVec 6) :
    codeWord code funct = 0#6 ++ code ++ funct := by
  apply BitVec.eq_of_getLsbD_eq
  intro i hi
  simp only [codeWord]
  repeat rw [BitVec.getLsbD_append]
  interval_cases i <;> simp [place]

theorem trapWord_eq (rs rt : RegNum) (code : BitVec 10) (funct : BitVec 6) :
    trapWord rs rt code funct = 0#6 ++ rs ++ rt ++ code ++ funct := by
  apply BitVec.eq_of_getLsbD_eq
  intro i hi
  simp only [trapWord]
  repeat rw [BitVec.getLsbD_append]
  interval_cases i <;> simp [place]

/-! ## The fields of a word -/

@[simp] theorem opField_rWord (op : BitVec 6) (rs rt rd : RegNum) (shamt : BitVec 5) (funct : BitVec 6) : opField (rWord op rs rt rd shamt funct) = op := by
  apply BitVec.eq_of_getLsbD_eq
  intro i hi
  interval_cases i <;> simp [opField, rWord, place]

@[simp] theorem rsField_rWord (op : BitVec 6) (rs rt rd : RegNum) (shamt : BitVec 5) (funct : BitVec 6) : rsField (rWord op rs rt rd shamt funct) = rs := by
  apply BitVec.eq_of_getLsbD_eq
  intro i hi
  interval_cases i <;> simp [rsField, rWord, place]

@[simp] theorem rtField_rWord (op : BitVec 6) (rs rt rd : RegNum) (shamt : BitVec 5) (funct : BitVec 6) : rtField (rWord op rs rt rd shamt funct) = rt := by
  apply BitVec.eq_of_getLsbD_eq
  intro i hi
  interval_cases i <;> simp [rtField, rWord, place]

@[simp] theorem rdField_rWord (op : BitVec 6) (rs rt rd : RegNum) (shamt : BitVec 5) (funct : BitVec 6) : rdField (rWord op rs rt rd shamt funct) = rd := by
  apply BitVec.eq_of_getLsbD_eq
  intro i hi
  interval_cases i <;> simp [rdField, rWord, place]

@[simp] theorem shamtField_rWord (op : BitVec 6) (rs rt rd : RegNum) (shamt : BitVec 5) (funct : BitVec 6) : shamtField (rWord op rs rt rd shamt funct) = shamt := by
  apply BitVec.eq_of_getLsbD_eq
  intro i hi
  interval_cases i <;> simp [shamtField, rWord, place]

@[simp] theorem functField_rWord (op : BitVec 6) (rs rt rd : RegNum) (shamt : BitVec 5) (funct : BitVec 6) : functField (rWord op rs rt rd shamt funct) = funct := by
  apply BitVec.eq_of_getLsbD_eq
  intro i hi
  interval_cases i <;> simp [functField, rWord, place]

@[simp] theorem opField_iWord (op : BitVec 6) (rs rt : RegNum) (imm : Half) : opField (iWord op rs rt imm) = op := by
  apply BitVec.eq_of_getLsbD_eq
  intro i hi
  interval_cases i <;> simp [opField, iWord, place]

@[simp] theorem rsField_iWord (op : BitVec 6) (rs rt : RegNum) (imm : Half) : rsField (iWord op rs rt imm) = rs := by
  apply BitVec.eq_of_getLsbD_eq
  intro i hi
  interval_cases i <;> simp [rsField, iWord, place]

@[simp] theorem rtField_iWord (op : BitVec 6) (rs rt : RegNum) (imm : Half) : rtField (iWord op rs rt imm) = rt := by
  apply BitVec.eq_of_getLsbD_eq
  intro i hi
  interval_cases i <;> simp [rtField, iWord, place]

@[simp] theorem immField_iWord (op : BitVec 6) (rs rt : RegNum) (imm : Half) : immField (iWord op rs rt imm) = imm := by
  apply BitVec.eq_of_getLsbD_eq
  intro i hi
  interval_cases i <;> simp [immField, iWord, place]

@[simp] theorem opField_jWord (op : BitVec 6) (addr : BitVec 26) : opField (jWord op addr) = op := by
  apply BitVec.eq_of_getLsbD_eq
  intro i hi
  interval_cases i <;> simp [opField, jWord, place]

@[simp] theorem addrField_jWord (op : BitVec 6) (addr : BitVec 26) : addrField (jWord op addr) = addr := by
  apply BitVec.eq_of_getLsbD_eq
  intro i hi
  interval_cases i <;> simp [addrField, jWord, place]

@[simp] theorem opField_codeWord (code : BitVec 20) (funct : BitVec 6) : opField (codeWord code funct) = 0 := by
  apply BitVec.eq_of_getLsbD_eq
  intro i hi
  interval_cases i <;> simp [opField, codeWord, place]

@[simp] theorem codeField_codeWord (code : BitVec 20) (funct : BitVec 6) : codeField (codeWord code funct) = code := by
  apply BitVec.eq_of_getLsbD_eq
  intro i hi
  interval_cases i <;> simp [codeField, codeWord, place]

@[simp] theorem functField_codeWord (code : BitVec 20) (funct : BitVec 6) : functField (codeWord code funct) = funct := by
  apply BitVec.eq_of_getLsbD_eq
  intro i hi
  interval_cases i <;> simp [functField, codeWord, place]

@[simp] theorem opField_trapWord (rs rt : RegNum) (code : BitVec 10) (funct : BitVec 6) : opField (trapWord rs rt code funct) = 0 := by
  apply BitVec.eq_of_getLsbD_eq
  intro i hi
  interval_cases i <;> simp [opField, trapWord, place]

@[simp] theorem rsField_trapWord (rs rt : RegNum) (code : BitVec 10) (funct : BitVec 6) : rsField (trapWord rs rt code funct) = rs := by
  apply BitVec.eq_of_getLsbD_eq
  intro i hi
  interval_cases i <;> simp [rsField, trapWord, place]

@[simp] theorem rtField_trapWord (rs rt : RegNum) (code : BitVec 10) (funct : BitVec 6) : rtField (trapWord rs rt code funct) = rt := by
  apply BitVec.eq_of_getLsbD_eq
  intro i hi
  interval_cases i <;> simp [rtField, trapWord, place]

@[simp] theorem trapCodeField_trapWord (rs rt : RegNum) (code : BitVec 10) (funct : BitVec 6) : trapCodeField (trapWord rs rt code funct) = code := by
  apply BitVec.eq_of_getLsbD_eq
  intro i hi
  interval_cases i <;> simp [trapCodeField, trapWord, place]

@[simp] theorem functField_trapWord (rs rt : RegNum) (code : BitVec 10) (funct : BitVec 6) : functField (trapWord rs rt code funct) = funct := by
  apply BitVec.eq_of_getLsbD_eq
  intro i hi
  interval_cases i <;> simp [functField, trapWord, place]

/-! ## A word from its fields -/

theorem rWord_fields (w : Word) : rWord (opField w) (rsField w) (rtField w) (rdField w) (shamtField w) (functField w) = w := by
  apply BitVec.eq_of_getLsbD_eq
  intro i hi
  interval_cases i <;> simp [rWord, opField, rsField, rtField, rdField, shamtField, functField, place]

theorem iWord_fields (w : Word) : iWord (opField w) (rsField w) (rtField w) (immField w) = w := by
  apply BitVec.eq_of_getLsbD_eq
  intro i hi
  interval_cases i <;> simp [iWord, opField, rsField, rtField, immField, place]

theorem jWord_fields (w : Word) : jWord (opField w) (addrField w) = w := by
  apply BitVec.eq_of_getLsbD_eq
  intro i hi
  interval_cases i <;> simp [jWord, opField, addrField, place]

theorem codeWord_fields {w : Word} (h : opField w = 0) : codeWord (codeField w) (functField w) = w := by
  apply BitVec.eq_of_getLsbD_eq
  intro i hi
  have hf : ∀ k, k < 6 → w.getLsbD (26 + k) = false := fun k hk => by
    simpa [opField, hk] using congrArg (fun v : BitVec 6 => v.getLsbD k) h
  have h0 := hf 0 (by omega)
  have h1 := hf 1 (by omega)
  have h2 := hf 2 (by omega)
  have h3 := hf 3 (by omega)
  have h4 := hf 4 (by omega)
  have h5 := hf 5 (by omega)
  clear h hf
  interval_cases i <;> simp_all [codeWord, codeField, functField, place]

theorem trapWord_fields {w : Word} (h : opField w = 0) : trapWord (rsField w) (rtField w) (trapCodeField w) (functField w) = w := by
  apply BitVec.eq_of_getLsbD_eq
  intro i hi
  have hf : ∀ k, k < 6 → w.getLsbD (26 + k) = false := fun k hk => by
    simpa [opField, hk] using congrArg (fun v : BitVec 6 => v.getLsbD k) h
  have h0 := hf 0 (by omega)
  have h1 := hf 1 (by omega)
  have h2 := hf 2 (by omega)
  have h3 := hf 3 (by omega)
  have h4 := hf 4 (by omega)
  have h5 := hf 5 (by omega)
  clear h hf
  interval_cases i <;> simp_all [trapWord, rsField, rtField, trapCodeField, functField, place]

/-- The unused-field check under `STRICT_FIELDS = true` (R105). -/
theorem strict_eq (b : Bool) (i : Instr) : strict b i = if b then .ok i else .error .unusedField := by
  cases b <;> rfl

/-- It lets an instruction through only when the fields are zero. -/
theorem strict_ok {b : Bool} {i j : Instr} : strict b i = .ok j ↔ b = true ∧ i = j := by
  cases b <;> simp [strict_eq]

end Sys2Proof
end

