-- ==== Sys2Proof/Laws/Memory.lean ====
section
/-! SUPPORT. The laws of memory: every operation keeps the canonical form, a read after a write gives the value written, and a
write leaves every other byte alone. -/

namespace Sys2Proof.Machine

set_option Elab.async false

/-! ## The list of cells -/

theorem canonicalFrom_mono {lo lo' : Nat} {cells : List Host.Cell} (h : Memory.canonicalFrom lo cells = true)
    (hle : lo' ≤ lo) : Memory.canonicalFrom lo' cells = true := by
  cases cells with
  | nil => rfl
  | cons c rest =>
    simp only [Memory.canonicalFrom, Bool.and_eq_true, decide_eq_true_eq] at h ⊢
    exact ⟨⟨⟨by omega, h.1.1.2⟩, h.1.2⟩, h.2⟩

theorem lookup_below {lo a : Nat} {cells : List Host.Cell} (h : Memory.canonicalFrom lo cells = true) (ha : a < lo) :
    Memory.lookup cells a = Config.unlistedByte := by
  induction cells generalizing lo with
  | nil => rfl
  | cons c rest ih =>
    simp only [Memory.canonicalFrom, Bool.and_eq_true, decide_eq_true_eq] at h
    rw [Memory.lookup, if_neg (by omega)]
    exact ih h.2 (by omega)

theorem lookup_insert_other {a b : Nat} (h : b ≠ a) (v : Byte) (cells : List Host.Cell) :
    Memory.lookup (Memory.insert cells a v) b = Memory.lookup cells b := by
  induction cells with
  | nil => simp only [Memory.insert]; split <;> simp [Memory.lookup, h]
  | cons c rest ih =>
    simp only [Memory.insert]
    split
    · split <;> simp [Memory.lookup, h]
    · split
      · subst a; split <;> simp [Memory.lookup, h]
      · simp [Memory.lookup, ih]

theorem lookup_insert_same {lo a : Nat} (v : Byte) {cells : List Host.Cell}
    (hc : Memory.canonicalFrom lo cells = true) : Memory.lookup (Memory.insert cells a v) a = v := by
  induction cells generalizing lo with
  | nil => simp only [Memory.insert]; split <;> simp_all [Memory.lookup]
  | cons c rest ih =>
    simp only [Memory.canonicalFrom, Bool.and_eq_true, decide_eq_true_eq] at hc
    simp only [Memory.insert]
    split
    · split
      · next hv => rw [Memory.lookup, if_neg (by omega), hv]; exact lookup_below hc.2 (by omega)
      · simp [Memory.lookup]
    · split
      · split
        · next ha hv => rw [hv]; exact lookup_below hc.2 (by omega)
        · simp [Memory.lookup]
      · next ha => rw [Memory.lookup, if_neg ha]; exact ih hc.2

theorem canonicalFrom_insert {lo a : Nat} (v : Byte) {cells : List Host.Cell}
    (hc : Memory.canonicalFrom lo cells = true) (hlo : lo ≤ a) (ha : a < 2 ^ 32) :
    Memory.canonicalFrom lo (Memory.insert cells a v) = true := by
  induction cells generalizing lo with
  | nil => simp only [Memory.insert]; split <;> simp_all [Memory.canonicalFrom]
  | cons c rest ih =>
    have hc' := hc
    simp only [Memory.canonicalFrom, Bool.and_eq_true, decide_eq_true_eq] at hc
    simp only [Memory.insert]
    split
    · split
      · exact hc'
      · simp only [Memory.canonicalFrom, Bool.and_eq_true, decide_eq_true_eq]
        refine ⟨⟨⟨hlo, ha⟩, by assumption⟩, ⟨⟨?_, ?_⟩, ?_⟩, ?_⟩ <;> first | omega | exact hc.1.2 | exact hc.2
    · split
      · split
        · exact canonicalFrom_mono hc.2 (by omega)
        · simp only [Memory.canonicalFrom, Bool.and_eq_true, decide_eq_true_eq]
          refine ⟨⟨⟨hlo, ha⟩, by assumption⟩, ?_⟩
          subst a; exact hc.2
      · simp only [Memory.canonicalFrom, Bool.and_eq_true, decide_eq_true_eq]
        exact ⟨hc.1, ih hc.2 (by omega)⟩

/-! ## One byte -/

@[simp] theorem read_write_other {a b : Word} (h : b ≠ a) (m : Memory) (v : Byte) : (m.write a v).read b = m.read b :=
  lookup_insert_other (fun e => h (BitVec.eq_of_toNat_eq e)) v m.cells

theorem read_write_same {m : Memory} (h : m.wf = true) (a : Word) (v : Byte) : (m.write a v).read a = v :=
  lookup_insert_same v h

@[simp] theorem wf_write {m : Memory} (h : m.wf = true) (a : Word) (v : Byte) : (m.write a v).wf = true :=
  canonicalFrom_insert v h (Nat.zero_le _) a.isLt

theorem read_write {m : Memory} (h : m.wf = true) (a b : Word) (v : Byte) :
    (m.write a v).read b = if b = a then v else m.read b := by
  by_cases hb : b = a
  · subst hb; simp [read_write_same h]
  · simp [hb]

theorem wf_reset : State.reset.mem.wf = true := rfl

/-! ## Wider accesses -/

@[simp] theorem wf_writeHalf {m : Memory} (h : m.wf = true) (a : Word) (v : Half) : (m.writeHalf a v).wf = true := by
  exact wf_write (wf_write h _ _) _ _

@[simp] theorem wf_writeWord {m : Memory} (h : m.wf = true) (a : Word) (v : Word) : (m.writeWord a v).wf = true := by
  exact wf_write (wf_write (wf_write (wf_write h _ _) _ _) _ _) _ _

@[simp] theorem wf_writeDouble {m : Memory} (h : m.wf = true) (a : Word) (v : Double) : (m.writeDouble a v).wf = true := by
  exact wf_writeWord (wf_writeWord h _ _) _ _

theorem read_writeHalf_other {a b : Word} (h0 : b ≠ a) (h1 : b ≠ a + 1) (m : Memory) (v : Half) :
    (m.writeHalf a v).read b = m.read b := by
  rw [Memory.writeHalf, read_write_other h1, read_write_other h0]

theorem read_writeWord_other {a b : Word} (h0 : b ≠ a) (h1 : b ≠ a + 1) (h2 : b ≠ a + 2) (h3 : b ≠ a + 3)
    (m : Memory) (v : Word) : (m.writeWord a v).read b = m.read b := by
  rw [Memory.writeWord, read_write_other h3, read_write_other h2, read_write_other h1, read_write_other h0]

/-- The two bytes of a stored halfword, the more significant at the lower address (R67). -/
theorem read_writeHalf {m : Memory} (h : m.wf = true) (a b : Word) (v : Half) :
    (m.writeHalf a v).read b = if b = a + 1 then v.extractLsb' 0 8 else if b = a then v.extractLsb' 8 8 else m.read b := by
  rw [Memory.writeHalf, read_write (wf_write h _ _), read_write h]

/-- The four bytes of a stored word, the most significant at the lowest address (R67). -/
theorem read_writeWord {m : Memory} (h : m.wf = true) (a b : Word) (v : Word) :
    (m.writeWord a v).read b =
      if b = a + 3 then v.extractLsb' 0 8 else if b = a + 2 then v.extractLsb' 8 8
      else if b = a + 1 then v.extractLsb' 16 8 else if b = a then v.extractLsb' 24 8 else m.read b := by
  rw [Memory.writeWord, read_write (wf_write (wf_write (wf_write h _ _) _ _) _ _),
    read_write (wf_write (wf_write h _ _) _ _), read_write (wf_write h _ _), read_write h]

theorem word_of_bytes (v : Word) :
    wordOfBytes (v.extractLsb' 24 8) (v.extractLsb' 16 8) (v.extractLsb' 8 8) (v.extractLsb' 0 8) = v := by
  unfold wordOfBytes
  rw [BitVec.extractLsb'_append_extractLsb'_eq_extractLsb' (by omega),
    BitVec.extractLsb'_append_extractLsb'_eq_extractLsb' (by omega),
    BitVec.extractLsb'_append_extractLsb'_eq_extractLsb' (by omega)]
  simp

theorem add_ne_add {a : Word} {m n : Nat} (h : m ≠ n) (hm : m < 2 ^ 32) (hn : n < 2 ^ 32) :
    a + BitVec.ofNat 32 m ≠ a + BitVec.ofNat 32 n := by
  intro e
  have := (BitVec.add_right_inj a).mp e
  have h' := congrArg BitVec.toNat this
  rw [BitVec.toNat_ofNat, BitVec.toNat_ofNat, Nat.mod_eq_of_lt hm, Nat.mod_eq_of_lt hn] at h'
  exact h h'

theorem readWord_writeWord_same {m : Memory} (h : m.wf = true) (a : Word) (v : Word) :
    (m.writeWord a v).readWord a = v := by
  have h0 : a ≠ a + 1 := by bv_omega
  have h1 : a ≠ a + 2 := by bv_omega
  have h2 : a ≠ a + 3 := by bv_omega
  have h3 : a + 1 ≠ a + 2 := by bv_omega
  have h4 : a + 1 ≠ a + 3 := by bv_omega
  have h5 : a + 2 ≠ a + 3 := by bv_omega
  simp only [Memory.readWord, read_writeWord h, if_neg h0, if_neg h1, if_neg h2, if_neg h3, if_neg h4, if_neg h5,
    if_true, word_of_bytes]

/-- A stored double word is its more significant word at the lower address (R67, R65). -/
theorem writeDouble_eq (m : Memory) (a : Word) (v : Double) :
    m.writeDouble a v = (m.writeWord a (v.extractLsb' 32 32)).writeWord (a + 4) (v.extractLsb' 0 32) := rfl

theorem read_writeDouble_other {a b : Word} (h : ∀ k, k < 8 → b ≠ a + BitVec.ofNat 32 k) (m : Memory) (v : Double) :
    (m.writeDouble a v).read b = m.read b := by
  have e : ∀ k, a + 4 + BitVec.ofNat 32 k = a + BitVec.ofNat 32 (4 + k) := by
    intro k; simp [BitVec.add_assoc, BitVec.ofNat_add]
  rw [writeDouble_eq]
  rw [read_writeWord_other (by simpa using h 4 (by omega)) (by simpa [e] using e 1 ▸ h 5 (by omega))
    (e 2 ▸ h 6 (by omega)) (e 3 ▸ h 7 (by omega))]
  exact read_writeWord_other (by simpa using h 0 (by omega)) (h 1 (by omega)) (h 2 (by omega)) (h 3 (by omega)) m _

end Sys2Proof.Machine
end

