-- ==== Sys2Proof/Laws/State.lean ====
section
/-! SUPPORT. One lemma per field per update of the state, and per register accessor, so that no proof unfolds a record update. -/

namespace Sys2Proof.Machine

set_option Elab.async false

variable (s : State)

/-! ## `setX` -/

@[simp] theorem setX_gpr (i : RegNum) (v : Word) : (s.setX i v).gpr = if i = 0#5 then s.gpr else s.gpr.set i.toNat v i.isLt := rfl
@[simp] theorem setX_pc (i : RegNum) (v : Word) : (s.setX i v).pc = s.pc := rfl
@[simp] theorem setX_npc (i : RegNum) (v : Word) : (s.setX i v).npc = s.npc := rfl
@[simp] theorem setX_inDelay (i : RegNum) (v : Word) : (s.setX i v).inDelay = s.inDelay := rfl
@[simp] theorem setX_hi (i : RegNum) (v : Word) : (s.setX i v).hi = s.hi := rfl
@[simp] theorem setX_lo (i : RegNum) (v : Word) : (s.setX i v).lo = s.lo := rfl
@[simp] theorem setX_fpr (i : RegNum) (v : Word) : (s.setX i v).fpr = s.fpr := rfl
@[simp] theorem setX_fpcond (i : RegNum) (v : Word) : (s.setX i v).fpcond = s.fpcond := rfl
@[simp] theorem setX_cause (i : RegNum) (v : Word) : (s.setX i v).cause = s.cause := rfl
@[simp] theorem setX_status (i : RegNum) (v : Word) : (s.setX i v).status = s.status := rfl
@[simp] theorem setX_llbit (i : RegNum) (v : Word) : (s.setX i v).llbit = s.llbit := rfl
@[simp] theorem setX_lladdr (i : RegNum) (v : Word) : (s.setX i v).lladdr = s.lladdr := rfl
@[simp] theorem setX_mem (i : RegNum) (v : Word) : (s.setX i v).mem = s.mem := rfl
@[simp] theorem setX_outcome (i : RegNum) (v : Word) : (s.setX i v).outcome = s.outcome := rfl
@[simp] theorem setX_memMap (i : RegNum) (v : Word) : (s.setX i v).memMap = s.memMap := rfl
@[simp] theorem setX_endPc (i : RegNum) (v : Word) : (s.setX i v).endPc = s.endPc := rfl
@[simp] theorem setX_irq (i : RegNum) (v : Word) : (s.setX i v).irq = s.irq := rfl
@[simp] theorem setX_stepNo (i : RegNum) (v : Word) : (s.setX i v).stepNo = s.stepNo := rfl
@[simp] theorem setX_draws (i : RegNum) (v : Word) : (s.setX i v).draws = s.draws := rfl
@[simp] theorem setX_f (i : RegNum) (v : Word) (r : RegNum) : (s.setX i v).f r = s.f r := rfl
@[simp] theorem setX_d (i : RegNum) (v : Word) (r : RegNum) : (s.setX i v).d r = s.d r := rfl

/-! ## `setF` -/

@[simp] theorem setF_gpr (i : RegNum) (v : Word) : (s.setF i v).gpr = s.gpr := rfl
@[simp] theorem setF_pc (i : RegNum) (v : Word) : (s.setF i v).pc = s.pc := rfl
@[simp] theorem setF_npc (i : RegNum) (v : Word) : (s.setF i v).npc = s.npc := rfl
@[simp] theorem setF_inDelay (i : RegNum) (v : Word) : (s.setF i v).inDelay = s.inDelay := rfl
@[simp] theorem setF_hi (i : RegNum) (v : Word) : (s.setF i v).hi = s.hi := rfl
@[simp] theorem setF_lo (i : RegNum) (v : Word) : (s.setF i v).lo = s.lo := rfl
@[simp] theorem setF_fpr (i : RegNum) (v : Word) : (s.setF i v).fpr = s.fpr.set i.toNat v i.isLt := rfl
@[simp] theorem setF_fpcond (i : RegNum) (v : Word) : (s.setF i v).fpcond = s.fpcond := rfl
@[simp] theorem setF_cause (i : RegNum) (v : Word) : (s.setF i v).cause = s.cause := rfl
@[simp] theorem setF_status (i : RegNum) (v : Word) : (s.setF i v).status = s.status := rfl
@[simp] theorem setF_llbit (i : RegNum) (v : Word) : (s.setF i v).llbit = s.llbit := rfl
@[simp] theorem setF_lladdr (i : RegNum) (v : Word) : (s.setF i v).lladdr = s.lladdr := rfl
@[simp] theorem setF_mem (i : RegNum) (v : Word) : (s.setF i v).mem = s.mem := rfl
@[simp] theorem setF_outcome (i : RegNum) (v : Word) : (s.setF i v).outcome = s.outcome := rfl
@[simp] theorem setF_memMap (i : RegNum) (v : Word) : (s.setF i v).memMap = s.memMap := rfl
@[simp] theorem setF_endPc (i : RegNum) (v : Word) : (s.setF i v).endPc = s.endPc := rfl
@[simp] theorem setF_irq (i : RegNum) (v : Word) : (s.setF i v).irq = s.irq := rfl
@[simp] theorem setF_stepNo (i : RegNum) (v : Word) : (s.setF i v).stepNo = s.stepNo := rfl
@[simp] theorem setF_draws (i : RegNum) (v : Word) : (s.setF i v).draws = s.draws := rfl
@[simp] theorem setF_x (i : RegNum) (v : Word) (r : RegNum) : (s.setF i v).x r = s.x r := rfl

/-! ## `setD` -/

@[simp] theorem setD_gpr (i : RegNum) (v : Double) : (s.setD i v).gpr = s.gpr := rfl
@[simp] theorem setD_pc (i : RegNum) (v : Double) : (s.setD i v).pc = s.pc := rfl
@[simp] theorem setD_npc (i : RegNum) (v : Double) : (s.setD i v).npc = s.npc := rfl
@[simp] theorem setD_inDelay (i : RegNum) (v : Double) : (s.setD i v).inDelay = s.inDelay := rfl
@[simp] theorem setD_hi (i : RegNum) (v : Double) : (s.setD i v).hi = s.hi := rfl
@[simp] theorem setD_lo (i : RegNum) (v : Double) : (s.setD i v).lo = s.lo := rfl
@[simp] theorem setD_fpcond (i : RegNum) (v : Double) : (s.setD i v).fpcond = s.fpcond := rfl
@[simp] theorem setD_cause (i : RegNum) (v : Double) : (s.setD i v).cause = s.cause := rfl
@[simp] theorem setD_status (i : RegNum) (v : Double) : (s.setD i v).status = s.status := rfl
@[simp] theorem setD_llbit (i : RegNum) (v : Double) : (s.setD i v).llbit = s.llbit := rfl
@[simp] theorem setD_lladdr (i : RegNum) (v : Double) : (s.setD i v).lladdr = s.lladdr := rfl
@[simp] theorem setD_mem (i : RegNum) (v : Double) : (s.setD i v).mem = s.mem := rfl
@[simp] theorem setD_outcome (i : RegNum) (v : Double) : (s.setD i v).outcome = s.outcome := rfl
@[simp] theorem setD_memMap (i : RegNum) (v : Double) : (s.setD i v).memMap = s.memMap := rfl
@[simp] theorem setD_endPc (i : RegNum) (v : Double) : (s.setD i v).endPc = s.endPc := rfl
@[simp] theorem setD_irq (i : RegNum) (v : Double) : (s.setD i v).irq = s.irq := rfl
@[simp] theorem setD_stepNo (i : RegNum) (v : Double) : (s.setD i v).stepNo = s.stepNo := rfl
@[simp] theorem setD_draws (i : RegNum) (v : Double) : (s.setD i v).draws = s.draws := rfl
@[simp] theorem setD_x (i : RegNum) (v : Double) (r : RegNum) : (s.setD i v).x r = s.x r := rfl

/-! ## `setHiLo` -/

@[simp] theorem setHiLo_gpr (h l : Word) : (s.setHiLo h l).gpr = s.gpr := rfl
@[simp] theorem setHiLo_pc (h l : Word) : (s.setHiLo h l).pc = s.pc := rfl
@[simp] theorem setHiLo_npc (h l : Word) : (s.setHiLo h l).npc = s.npc := rfl
@[simp] theorem setHiLo_inDelay (h l : Word) : (s.setHiLo h l).inDelay = s.inDelay := rfl
@[simp] theorem setHiLo_hi (h l : Word) : (s.setHiLo h l).hi = h := rfl
@[simp] theorem setHiLo_lo (h l : Word) : (s.setHiLo h l).lo = l := rfl
@[simp] theorem setHiLo_fpr (h l : Word) : (s.setHiLo h l).fpr = s.fpr := rfl
@[simp] theorem setHiLo_fpcond (h l : Word) : (s.setHiLo h l).fpcond = s.fpcond := rfl
@[simp] theorem setHiLo_cause (h l : Word) : (s.setHiLo h l).cause = s.cause := rfl
@[simp] theorem setHiLo_status (h l : Word) : (s.setHiLo h l).status = s.status := rfl
@[simp] theorem setHiLo_llbit (h l : Word) : (s.setHiLo h l).llbit = s.llbit := rfl
@[simp] theorem setHiLo_lladdr (h l : Word) : (s.setHiLo h l).lladdr = s.lladdr := rfl
@[simp] theorem setHiLo_mem (h l : Word) : (s.setHiLo h l).mem = s.mem := rfl
@[simp] theorem setHiLo_outcome (h l : Word) : (s.setHiLo h l).outcome = s.outcome := rfl
@[simp] theorem setHiLo_memMap (h l : Word) : (s.setHiLo h l).memMap = s.memMap := rfl
@[simp] theorem setHiLo_endPc (h l : Word) : (s.setHiLo h l).endPc = s.endPc := rfl
@[simp] theorem setHiLo_irq (h l : Word) : (s.setHiLo h l).irq = s.irq := rfl
@[simp] theorem setHiLo_stepNo (h l : Word) : (s.setHiLo h l).stepNo = s.stepNo := rfl
@[simp] theorem setHiLo_draws (h l : Word) : (s.setHiLo h l).draws = s.draws := rfl
@[simp] theorem setHiLo_x (h l : Word) (r : RegNum) : (s.setHiLo h l).x r = s.x r := rfl
@[simp] theorem setHiLo_f (h l : Word) (r : RegNum) : (s.setHiLo h l).f r = s.f r := rfl
@[simp] theorem setHiLo_d (h l : Word) (r : RegNum) : (s.setHiLo h l).d r = s.d r := rfl

/-! ## `setHi` -/

@[simp] theorem setHi_gpr (v : Word) : (s.setHi v).gpr = s.gpr := rfl
@[simp] theorem setHi_pc (v : Word) : (s.setHi v).pc = s.pc := rfl
@[simp] theorem setHi_npc (v : Word) : (s.setHi v).npc = s.npc := rfl
@[simp] theorem setHi_inDelay (v : Word) : (s.setHi v).inDelay = s.inDelay := rfl
@[simp] theorem setHi_hi (v : Word) : (s.setHi v).hi = v := rfl
@[simp] theorem setHi_lo (v : Word) : (s.setHi v).lo = s.lo := rfl
@[simp] theorem setHi_fpr (v : Word) : (s.setHi v).fpr = s.fpr := rfl
@[simp] theorem setHi_fpcond (v : Word) : (s.setHi v).fpcond = s.fpcond := rfl
@[simp] theorem setHi_cause (v : Word) : (s.setHi v).cause = s.cause := rfl
@[simp] theorem setHi_status (v : Word) : (s.setHi v).status = s.status := rfl
@[simp] theorem setHi_llbit (v : Word) : (s.setHi v).llbit = s.llbit := rfl
@[simp] theorem setHi_lladdr (v : Word) : (s.setHi v).lladdr = s.lladdr := rfl
@[simp] theorem setHi_mem (v : Word) : (s.setHi v).mem = s.mem := rfl
@[simp] theorem setHi_outcome (v : Word) : (s.setHi v).outcome = s.outcome := rfl
@[simp] theorem setHi_memMap (v : Word) : (s.setHi v).memMap = s.memMap := rfl
@[simp] theorem setHi_endPc (v : Word) : (s.setHi v).endPc = s.endPc := rfl
@[simp] theorem setHi_irq (v : Word) : (s.setHi v).irq = s.irq := rfl
@[simp] theorem setHi_stepNo (v : Word) : (s.setHi v).stepNo = s.stepNo := rfl
@[simp] theorem setHi_draws (v : Word) : (s.setHi v).draws = s.draws := rfl
@[simp] theorem setHi_x (v : Word) (r : RegNum) : (s.setHi v).x r = s.x r := rfl
@[simp] theorem setHi_f (v : Word) (r : RegNum) : (s.setHi v).f r = s.f r := rfl
@[simp] theorem setHi_d (v : Word) (r : RegNum) : (s.setHi v).d r = s.d r := rfl

/-! ## `setLo` -/

@[simp] theorem setLo_gpr (v : Word) : (s.setLo v).gpr = s.gpr := rfl
@[simp] theorem setLo_pc (v : Word) : (s.setLo v).pc = s.pc := rfl
@[simp] theorem setLo_npc (v : Word) : (s.setLo v).npc = s.npc := rfl
@[simp] theorem setLo_inDelay (v : Word) : (s.setLo v).inDelay = s.inDelay := rfl
@[simp] theorem setLo_hi (v : Word) : (s.setLo v).hi = s.hi := rfl
@[simp] theorem setLo_lo (v : Word) : (s.setLo v).lo = v := rfl
@[simp] theorem setLo_fpr (v : Word) : (s.setLo v).fpr = s.fpr := rfl
@[simp] theorem setLo_fpcond (v : Word) : (s.setLo v).fpcond = s.fpcond := rfl
@[simp] theorem setLo_cause (v : Word) : (s.setLo v).cause = s.cause := rfl
@[simp] theorem setLo_status (v : Word) : (s.setLo v).status = s.status := rfl
@[simp] theorem setLo_llbit (v : Word) : (s.setLo v).llbit = s.llbit := rfl
@[simp] theorem setLo_lladdr (v : Word) : (s.setLo v).lladdr = s.lladdr := rfl
@[simp] theorem setLo_mem (v : Word) : (s.setLo v).mem = s.mem := rfl
@[simp] theorem setLo_outcome (v : Word) : (s.setLo v).outcome = s.outcome := rfl
@[simp] theorem setLo_memMap (v : Word) : (s.setLo v).memMap = s.memMap := rfl
@[simp] theorem setLo_endPc (v : Word) : (s.setLo v).endPc = s.endPc := rfl
@[simp] theorem setLo_irq (v : Word) : (s.setLo v).irq = s.irq := rfl
@[simp] theorem setLo_stepNo (v : Word) : (s.setLo v).stepNo = s.stepNo := rfl
@[simp] theorem setLo_draws (v : Word) : (s.setLo v).draws = s.draws := rfl
@[simp] theorem setLo_x (v : Word) (r : RegNum) : (s.setLo v).x r = s.x r := rfl
@[simp] theorem setLo_f (v : Word) (r : RegNum) : (s.setLo v).f r = s.f r := rfl
@[simp] theorem setLo_d (v : Word) (r : RegNum) : (s.setLo v).d r = s.d r := rfl

/-! ## `setFpcond` -/

@[simp] theorem setFpcond_gpr (b : Bool) : (s.setFpcond b).gpr = s.gpr := rfl
@[simp] theorem setFpcond_pc (b : Bool) : (s.setFpcond b).pc = s.pc := rfl
@[simp] theorem setFpcond_npc (b : Bool) : (s.setFpcond b).npc = s.npc := rfl
@[simp] theorem setFpcond_inDelay (b : Bool) : (s.setFpcond b).inDelay = s.inDelay := rfl
@[simp] theorem setFpcond_hi (b : Bool) : (s.setFpcond b).hi = s.hi := rfl
@[simp] theorem setFpcond_lo (b : Bool) : (s.setFpcond b).lo = s.lo := rfl
@[simp] theorem setFpcond_fpr (b : Bool) : (s.setFpcond b).fpr = s.fpr := rfl
@[simp] theorem setFpcond_fpcond (b : Bool) : (s.setFpcond b).fpcond = b := rfl
@[simp] theorem setFpcond_cause (b : Bool) : (s.setFpcond b).cause = s.cause := rfl
@[simp] theorem setFpcond_status (b : Bool) : (s.setFpcond b).status = s.status := rfl
@[simp] theorem setFpcond_llbit (b : Bool) : (s.setFpcond b).llbit = s.llbit := rfl
@[simp] theorem setFpcond_lladdr (b : Bool) : (s.setFpcond b).lladdr = s.lladdr := rfl
@[simp] theorem setFpcond_mem (b : Bool) : (s.setFpcond b).mem = s.mem := rfl
@[simp] theorem setFpcond_outcome (b : Bool) : (s.setFpcond b).outcome = s.outcome := rfl
@[simp] theorem setFpcond_memMap (b : Bool) : (s.setFpcond b).memMap = s.memMap := rfl
@[simp] theorem setFpcond_endPc (b : Bool) : (s.setFpcond b).endPc = s.endPc := rfl
@[simp] theorem setFpcond_irq (b : Bool) : (s.setFpcond b).irq = s.irq := rfl
@[simp] theorem setFpcond_stepNo (b : Bool) : (s.setFpcond b).stepNo = s.stepNo := rfl
@[simp] theorem setFpcond_draws (b : Bool) : (s.setFpcond b).draws = s.draws := rfl
@[simp] theorem setFpcond_x (b : Bool) (r : RegNum) : (s.setFpcond b).x r = s.x r := rfl
@[simp] theorem setFpcond_f (b : Bool) (r : RegNum) : (s.setFpcond b).f r = s.f r := rfl
@[simp] theorem setFpcond_d (b : Bool) (r : RegNum) : (s.setFpcond b).d r = s.d r := rfl

/-! ## `setMem` -/

@[simp] theorem setMem_gpr (m : Memory) : (s.setMem m).gpr = s.gpr := rfl
@[simp] theorem setMem_pc (m : Memory) : (s.setMem m).pc = s.pc := rfl
@[simp] theorem setMem_npc (m : Memory) : (s.setMem m).npc = s.npc := rfl
@[simp] theorem setMem_inDelay (m : Memory) : (s.setMem m).inDelay = s.inDelay := rfl
@[simp] theorem setMem_hi (m : Memory) : (s.setMem m).hi = s.hi := rfl
@[simp] theorem setMem_lo (m : Memory) : (s.setMem m).lo = s.lo := rfl
@[simp] theorem setMem_fpr (m : Memory) : (s.setMem m).fpr = s.fpr := rfl
@[simp] theorem setMem_fpcond (m : Memory) : (s.setMem m).fpcond = s.fpcond := rfl
@[simp] theorem setMem_cause (m : Memory) : (s.setMem m).cause = s.cause := rfl
@[simp] theorem setMem_status (m : Memory) : (s.setMem m).status = s.status := rfl
@[simp] theorem setMem_llbit (m : Memory) : (s.setMem m).llbit = s.llbit := rfl
@[simp] theorem setMem_lladdr (m : Memory) : (s.setMem m).lladdr = s.lladdr := rfl
@[simp] theorem setMem_mem (m : Memory) : (s.setMem m).mem = m := rfl
@[simp] theorem setMem_outcome (m : Memory) : (s.setMem m).outcome = s.outcome := rfl
@[simp] theorem setMem_memMap (m : Memory) : (s.setMem m).memMap = s.memMap := rfl
@[simp] theorem setMem_endPc (m : Memory) : (s.setMem m).endPc = s.endPc := rfl
@[simp] theorem setMem_irq (m : Memory) : (s.setMem m).irq = s.irq := rfl
@[simp] theorem setMem_stepNo (m : Memory) : (s.setMem m).stepNo = s.stepNo := rfl
@[simp] theorem setMem_draws (m : Memory) : (s.setMem m).draws = s.draws := rfl
@[simp] theorem setMem_x (m : Memory) (r : RegNum) : (s.setMem m).x r = s.x r := rfl
@[simp] theorem setMem_f (m : Memory) (r : RegNum) : (s.setMem m).f r = s.f r := rfl
@[simp] theorem setMem_d (m : Memory) (r : RegNum) : (s.setMem m).d r = s.d r := rfl

/-! ## `reserve` -/

@[simp] theorem reserve_gpr (a : Word) : (s.reserve a).gpr = s.gpr := rfl
@[simp] theorem reserve_pc (a : Word) : (s.reserve a).pc = s.pc := rfl
@[simp] theorem reserve_npc (a : Word) : (s.reserve a).npc = s.npc := rfl
@[simp] theorem reserve_inDelay (a : Word) : (s.reserve a).inDelay = s.inDelay := rfl
@[simp] theorem reserve_hi (a : Word) : (s.reserve a).hi = s.hi := rfl
@[simp] theorem reserve_lo (a : Word) : (s.reserve a).lo = s.lo := rfl
@[simp] theorem reserve_fpr (a : Word) : (s.reserve a).fpr = s.fpr := rfl
@[simp] theorem reserve_fpcond (a : Word) : (s.reserve a).fpcond = s.fpcond := rfl
@[simp] theorem reserve_cause (a : Word) : (s.reserve a).cause = s.cause := rfl
@[simp] theorem reserve_status (a : Word) : (s.reserve a).status = s.status := rfl
@[simp] theorem reserve_llbit (a : Word) : (s.reserve a).llbit = true := rfl
@[simp] theorem reserve_lladdr (a : Word) : (s.reserve a).lladdr = a := rfl
@[simp] theorem reserve_mem (a : Word) : (s.reserve a).mem = s.mem := rfl
@[simp] theorem reserve_outcome (a : Word) : (s.reserve a).outcome = s.outcome := rfl
@[simp] theorem reserve_memMap (a : Word) : (s.reserve a).memMap = s.memMap := rfl
@[simp] theorem reserve_endPc (a : Word) : (s.reserve a).endPc = s.endPc := rfl
@[simp] theorem reserve_irq (a : Word) : (s.reserve a).irq = s.irq := rfl
@[simp] theorem reserve_stepNo (a : Word) : (s.reserve a).stepNo = s.stepNo := rfl
@[simp] theorem reserve_draws (a : Word) : (s.reserve a).draws = s.draws := rfl
@[simp] theorem reserve_x (a : Word) (r : RegNum) : (s.reserve a).x r = s.x r := rfl
@[simp] theorem reserve_f (a : Word) (r : RegNum) : (s.reserve a).f r = s.f r := rfl
@[simp] theorem reserve_d (a : Word) (r : RegNum) : (s.reserve a).d r = s.d r := rfl

/-! ## `clearLink` -/

@[simp] theorem clearLink_gpr : (s.clearLink).gpr = s.gpr := rfl
@[simp] theorem clearLink_pc : (s.clearLink).pc = s.pc := rfl
@[simp] theorem clearLink_npc : (s.clearLink).npc = s.npc := rfl
@[simp] theorem clearLink_inDelay : (s.clearLink).inDelay = s.inDelay := rfl
@[simp] theorem clearLink_hi : (s.clearLink).hi = s.hi := rfl
@[simp] theorem clearLink_lo : (s.clearLink).lo = s.lo := rfl
@[simp] theorem clearLink_fpr : (s.clearLink).fpr = s.fpr := rfl
@[simp] theorem clearLink_fpcond : (s.clearLink).fpcond = s.fpcond := rfl
@[simp] theorem clearLink_cause : (s.clearLink).cause = s.cause := rfl
@[simp] theorem clearLink_status : (s.clearLink).status = s.status := rfl
@[simp] theorem clearLink_llbit : (s.clearLink).llbit = false := rfl
@[simp] theorem clearLink_lladdr : (s.clearLink).lladdr = s.lladdr := rfl
@[simp] theorem clearLink_mem : (s.clearLink).mem = s.mem := rfl
@[simp] theorem clearLink_outcome : (s.clearLink).outcome = s.outcome := rfl
@[simp] theorem clearLink_memMap : (s.clearLink).memMap = s.memMap := rfl
@[simp] theorem clearLink_endPc : (s.clearLink).endPc = s.endPc := rfl
@[simp] theorem clearLink_irq : (s.clearLink).irq = s.irq := rfl
@[simp] theorem clearLink_stepNo : (s.clearLink).stepNo = s.stepNo := rfl
@[simp] theorem clearLink_draws : (s.clearLink).draws = s.draws := rfl
@[simp] theorem clearLink_x (r : RegNum) : (s.clearLink).x r = s.x r := rfl
@[simp] theorem clearLink_f (r : RegNum) : (s.clearLink).f r = s.f r := rfl
@[simp] theorem clearLink_d (r : RegNum) : (s.clearLink).d r = s.d r := rfl

/-! ## `drawn` -/

@[simp] theorem drawn_gpr (n : Nat) : (s.drawn n).gpr = s.gpr := rfl
@[simp] theorem drawn_pc (n : Nat) : (s.drawn n).pc = s.pc := rfl
@[simp] theorem drawn_npc (n : Nat) : (s.drawn n).npc = s.npc := rfl
@[simp] theorem drawn_inDelay (n : Nat) : (s.drawn n).inDelay = s.inDelay := rfl
@[simp] theorem drawn_hi (n : Nat) : (s.drawn n).hi = s.hi := rfl
@[simp] theorem drawn_lo (n : Nat) : (s.drawn n).lo = s.lo := rfl
@[simp] theorem drawn_fpr (n : Nat) : (s.drawn n).fpr = s.fpr := rfl
@[simp] theorem drawn_fpcond (n : Nat) : (s.drawn n).fpcond = s.fpcond := rfl
@[simp] theorem drawn_cause (n : Nat) : (s.drawn n).cause = s.cause := rfl
@[simp] theorem drawn_status (n : Nat) : (s.drawn n).status = s.status := rfl
@[simp] theorem drawn_llbit (n : Nat) : (s.drawn n).llbit = s.llbit := rfl
@[simp] theorem drawn_lladdr (n : Nat) : (s.drawn n).lladdr = s.lladdr := rfl
@[simp] theorem drawn_mem (n : Nat) : (s.drawn n).mem = s.mem := rfl
@[simp] theorem drawn_outcome (n : Nat) : (s.drawn n).outcome = s.outcome := rfl
@[simp] theorem drawn_memMap (n : Nat) : (s.drawn n).memMap = s.memMap := rfl
@[simp] theorem drawn_endPc (n : Nat) : (s.drawn n).endPc = s.endPc := rfl
@[simp] theorem drawn_irq (n : Nat) : (s.drawn n).irq = s.irq := rfl
@[simp] theorem drawn_stepNo (n : Nat) : (s.drawn n).stepNo = s.stepNo := rfl
@[simp] theorem drawn_draws (n : Nat) : (s.drawn n).draws = s.draws + n := rfl
@[simp] theorem drawn_x (n : Nat) (r : RegNum) : (s.drawn n).x r = s.x r := rfl
@[simp] theorem drawn_f (n : Nat) (r : RegNum) : (s.drawn n).f r = s.f r := rfl
@[simp] theorem drawn_d (n : Nat) (r : RegNum) : (s.drawn n).d r = s.d r := rfl

/-! ## `advance` -/

@[simp] theorem advance_gpr : (s.advance).gpr = s.gpr := rfl
@[simp] theorem advance_pc : (s.advance).pc = s.npc := rfl
@[simp] theorem advance_npc : (s.advance).npc = s.npc + 4 := rfl
@[simp] theorem advance_inDelay : (s.advance).inDelay = false := rfl
@[simp] theorem advance_hi : (s.advance).hi = s.hi := rfl
@[simp] theorem advance_lo : (s.advance).lo = s.lo := rfl
@[simp] theorem advance_fpr : (s.advance).fpr = s.fpr := rfl
@[simp] theorem advance_fpcond : (s.advance).fpcond = s.fpcond := rfl
@[simp] theorem advance_cause : (s.advance).cause = s.cause := rfl
@[simp] theorem advance_status : (s.advance).status = s.status := rfl
@[simp] theorem advance_llbit : (s.advance).llbit = s.llbit := rfl
@[simp] theorem advance_lladdr : (s.advance).lladdr = s.lladdr := rfl
@[simp] theorem advance_mem : (s.advance).mem = s.mem := rfl
@[simp] theorem advance_outcome : (s.advance).outcome = s.outcome := rfl
@[simp] theorem advance_memMap : (s.advance).memMap = s.memMap := rfl
@[simp] theorem advance_endPc : (s.advance).endPc = s.endPc := rfl
@[simp] theorem advance_irq : (s.advance).irq = s.irq := rfl
@[simp] theorem advance_stepNo : (s.advance).stepNo = s.stepNo := rfl
@[simp] theorem advance_draws : (s.advance).draws = s.draws := rfl
@[simp] theorem advance_x (r : RegNum) : (s.advance).x r = s.x r := rfl
@[simp] theorem advance_f (r : RegNum) : (s.advance).f r = s.f r := rfl
@[simp] theorem advance_d (r : RegNum) : (s.advance).d r = s.d r := rfl

/-! ## `transfer` -/

@[simp] theorem transfer_gpr (target : Option Word) : (s.transfer target).gpr = s.gpr := rfl
@[simp] theorem transfer_pc (target : Option Word) : (s.transfer target).pc = s.npc := rfl
@[simp] theorem transfer_npc (target : Option Word) : (s.transfer target).npc = target.getD (s.npc + 4) := rfl
@[simp] theorem transfer_inDelay (target : Option Word) : (s.transfer target).inDelay = true := rfl
@[simp] theorem transfer_hi (target : Option Word) : (s.transfer target).hi = s.hi := rfl
@[simp] theorem transfer_lo (target : Option Word) : (s.transfer target).lo = s.lo := rfl
@[simp] theorem transfer_fpr (target : Option Word) : (s.transfer target).fpr = s.fpr := rfl
@[simp] theorem transfer_fpcond (target : Option Word) : (s.transfer target).fpcond = s.fpcond := rfl
@[simp] theorem transfer_cause (target : Option Word) : (s.transfer target).cause = s.cause := rfl
@[simp] theorem transfer_status (target : Option Word) : (s.transfer target).status = s.status := rfl
@[simp] theorem transfer_llbit (target : Option Word) : (s.transfer target).llbit = s.llbit := rfl
@[simp] theorem transfer_lladdr (target : Option Word) : (s.transfer target).lladdr = s.lladdr := rfl
@[simp] theorem transfer_mem (target : Option Word) : (s.transfer target).mem = s.mem := rfl
@[simp] theorem transfer_outcome (target : Option Word) : (s.transfer target).outcome = s.outcome := rfl
@[simp] theorem transfer_memMap (target : Option Word) : (s.transfer target).memMap = s.memMap := rfl
@[simp] theorem transfer_endPc (target : Option Word) : (s.transfer target).endPc = s.endPc := rfl
@[simp] theorem transfer_irq (target : Option Word) : (s.transfer target).irq = s.irq := rfl
@[simp] theorem transfer_stepNo (target : Option Word) : (s.transfer target).stepNo = s.stepNo := rfl
@[simp] theorem transfer_draws (target : Option Word) : (s.transfer target).draws = s.draws := rfl
@[simp] theorem transfer_x (target : Option Word) (r : RegNum) : (s.transfer target).x r = s.x r := rfl
@[simp] theorem transfer_f (target : Option Word) (r : RegNum) : (s.transfer target).f r = s.f r := rfl
@[simp] theorem transfer_d (target : Option Word) (r : RegNum) : (s.transfer target).d r = s.d r := rfl

/-! ## `takeException` -/

@[simp] theorem takeException_gpr (e : Exc) (info : Word) : (s.takeException e info).gpr = s.gpr := rfl
@[simp] theorem takeException_pc (e : Exc) (info : Word) : (s.takeException e info).pc = s.pc := rfl
@[simp] theorem takeException_npc (e : Exc) (info : Word) : (s.takeException e info).npc = s.npc := rfl
@[simp] theorem takeException_inDelay (e : Exc) (info : Word) : (s.takeException e info).inDelay = s.inDelay := rfl
@[simp] theorem takeException_hi (e : Exc) (info : Word) : (s.takeException e info).hi = s.hi := rfl
@[simp] theorem takeException_lo (e : Exc) (info : Word) : (s.takeException e info).lo = s.lo := rfl
@[simp] theorem takeException_fpr (e : Exc) (info : Word) : (s.takeException e info).fpr = s.fpr := rfl
@[simp] theorem takeException_fpcond (e : Exc) (info : Word) : (s.takeException e info).fpcond = s.fpcond := rfl
@[simp] theorem takeException_cause (e : Exc) (info : Word) : (s.takeException e info).cause = causeWith s.cause s.inDelay e.code := rfl
@[simp] theorem takeException_status (e : Exc) (info : Word) : (s.takeException e info).status = s.status ||| 2 := rfl
@[simp] theorem takeException_llbit (e : Exc) (info : Word) : (s.takeException e info).llbit = false := rfl
@[simp] theorem takeException_lladdr (e : Exc) (info : Word) : (s.takeException e info).lladdr = s.lladdr := rfl
@[simp] theorem takeException_mem (e : Exc) (info : Word) : (s.takeException e info).mem = s.mem := rfl
@[simp] theorem takeException_outcome (e : Exc) (info : Word) : (s.takeException e info).outcome = .faulted e.code s.pc s.inDelay info := rfl
@[simp] theorem takeException_memMap (e : Exc) (info : Word) : (s.takeException e info).memMap = s.memMap := rfl
@[simp] theorem takeException_endPc (e : Exc) (info : Word) : (s.takeException e info).endPc = s.endPc := rfl
@[simp] theorem takeException_irq (e : Exc) (info : Word) : (s.takeException e info).irq = s.irq := rfl
@[simp] theorem takeException_stepNo (e : Exc) (info : Word) : (s.takeException e info).stepNo = s.stepNo := rfl
@[simp] theorem takeException_draws (e : Exc) (info : Word) : (s.takeException e info).draws = s.draws := rfl
@[simp] theorem takeException_x (e : Exc) (info : Word) (r : RegNum) : (s.takeException e info).x r = s.x r := rfl
@[simp] theorem takeException_f (e : Exc) (info : Word) (r : RegNum) : (s.takeException e info).f r = s.f r := rfl
@[simp] theorem takeException_d (e : Exc) (info : Word) (r : RegNum) : (s.takeException e info).d r = s.d r := rfl

/-! ## `sampleIrq` -/

@[simp] theorem sampleIrq_gpr : (s.sampleIrq).gpr = s.gpr := rfl
@[simp] theorem sampleIrq_pc : (s.sampleIrq).pc = s.pc := rfl
@[simp] theorem sampleIrq_npc : (s.sampleIrq).npc = s.npc := rfl
@[simp] theorem sampleIrq_inDelay : (s.sampleIrq).inDelay = s.inDelay := rfl
@[simp] theorem sampleIrq_hi : (s.sampleIrq).hi = s.hi := rfl
@[simp] theorem sampleIrq_lo : (s.sampleIrq).lo = s.lo := rfl
@[simp] theorem sampleIrq_fpr : (s.sampleIrq).fpr = s.fpr := rfl
@[simp] theorem sampleIrq_fpcond : (s.sampleIrq).fpcond = s.fpcond := rfl
@[simp] theorem sampleIrq_cause : (s.sampleIrq).cause = causeWithIp s.cause s.irqNow := rfl
@[simp] theorem sampleIrq_status : (s.sampleIrq).status = s.status := rfl
@[simp] theorem sampleIrq_llbit : (s.sampleIrq).llbit = s.llbit := rfl
@[simp] theorem sampleIrq_lladdr : (s.sampleIrq).lladdr = s.lladdr := rfl
@[simp] theorem sampleIrq_mem : (s.sampleIrq).mem = s.mem := rfl
@[simp] theorem sampleIrq_outcome : (s.sampleIrq).outcome = s.outcome := rfl
@[simp] theorem sampleIrq_memMap : (s.sampleIrq).memMap = s.memMap := rfl
@[simp] theorem sampleIrq_endPc : (s.sampleIrq).endPc = s.endPc := rfl
@[simp] theorem sampleIrq_irq : (s.sampleIrq).irq = s.irq := rfl
@[simp] theorem sampleIrq_stepNo : (s.sampleIrq).stepNo = s.stepNo + 1 := rfl
@[simp] theorem sampleIrq_draws : (s.sampleIrq).draws = s.draws := rfl
@[simp] theorem sampleIrq_x (r : RegNum) : (s.sampleIrq).x r = s.x r := rfl
@[simp] theorem sampleIrq_f (r : RegNum) : (s.sampleIrq).f r = s.f r := rfl
@[simp] theorem sampleIrq_d (r : RegNum) : (s.sampleIrq).d r = s.d r := rfl

/-! ## `finish` -/

@[simp] theorem finish_gpr : (s.finish).gpr = s.gpr := rfl
@[simp] theorem finish_pc : (s.finish).pc = s.pc := rfl
@[simp] theorem finish_npc : (s.finish).npc = s.npc := rfl
@[simp] theorem finish_inDelay : (s.finish).inDelay = s.inDelay := rfl
@[simp] theorem finish_hi : (s.finish).hi = s.hi := rfl
@[simp] theorem finish_lo : (s.finish).lo = s.lo := rfl
@[simp] theorem finish_fpr : (s.finish).fpr = s.fpr := rfl
@[simp] theorem finish_fpcond : (s.finish).fpcond = s.fpcond := rfl
@[simp] theorem finish_cause : (s.finish).cause = s.cause := rfl
@[simp] theorem finish_status : (s.finish).status = s.status := rfl
@[simp] theorem finish_llbit : (s.finish).llbit = s.llbit := rfl
@[simp] theorem finish_lladdr : (s.finish).lladdr = s.lladdr := rfl
@[simp] theorem finish_mem : (s.finish).mem = s.mem := rfl
@[simp] theorem finish_outcome : (s.finish).outcome = .ended := rfl
@[simp] theorem finish_memMap : (s.finish).memMap = s.memMap := rfl
@[simp] theorem finish_endPc : (s.finish).endPc = s.endPc := rfl
@[simp] theorem finish_irq : (s.finish).irq = s.irq := rfl
@[simp] theorem finish_stepNo : (s.finish).stepNo = s.stepNo := rfl
@[simp] theorem finish_draws : (s.finish).draws = s.draws := rfl
@[simp] theorem finish_x (r : RegNum) : (s.finish).x r = s.x r := rfl
@[simp] theorem finish_f (r : RegNum) : (s.finish).f r = s.f r := rfl
@[simp] theorem finish_d (r : RegNum) : (s.finish).d r = s.d r := rfl

/-! ## Reading a register after a write -/

@[simp] theorem x_zero : s.x 0#5 = 0#32 := rfl

theorem x_of_ne_zero {r : RegNum} (h : r ≠ 0#5) : s.x r = s.gpr[r.toNat]'r.isLt := by simp only [State.x, if_neg h]

theorem toNat_ne {m n : RegNum} (h : m ≠ n) : m.toNat ≠ n.toNat := fun e => h (BitVec.eq_of_toNat_eq e)

theorem setX_x (i r : RegNum) (v : Word) : (s.setX i v).x r = if r = i ∧ i ≠ 0#5 then v else s.x r := by
  by_cases hi : i = 0#5
  · subst hi; simp [State.x]
  · by_cases hr : r = 0#5
    · subst hr; simp [Ne.symm hi]
    · by_cases h : r = i
      · subst h; simp [x_of_ne_zero, hr]
      · simp [x_of_ne_zero, hr, hi, h, toNat_ne (Ne.symm h)]

theorem setX_x_other {i r : RegNum} (h : r ≠ i) (v : Word) : (s.setX i v).x r = s.x r := by
  simp [setX_x, h]

theorem setX_x_same (i : RegNum) (v : Word) : (s.setX i v).x i = if i = 0#5 then 0#32 else v := by
  by_cases h : i = 0#5
  · subst h; simp
  · simp [setX_x, h]

theorem setX_gpr_zero (i : RegNum) (v : Word) : (s.setX i v).gpr[0] = s.gpr[0] := by
  by_cases h : i = 0#5
  · simp [h]
  · have : i.toNat ≠ 0 := toNat_ne h
    simp [h, this]

theorem setF_f (i r : RegNum) (v : Word) : (s.setF i v).f r = if r = i then v else s.f r := by
  by_cases h : r = i
  · subst h; simp [State.f]
  · simp [State.f, h, toNat_ne (Ne.symm h)]

@[simp] theorem setF_f_same (i : RegNum) (v : Word) : (s.setF i v).f i = v := by simp [setF_f]

@[simp] theorem setF_f_other {i r : RegNum} (h : r ≠ i) (v : Word) : (s.setF i v).f r = s.f r := by
  simp [setF_f, h]

theorem setD_f (n r : RegNum) (v : Double) :
    (s.setD n v).f r = if r = n + 1#5 then v.extractLsb' 0 32 else if r = n then v.extractLsb' 32 32 else s.f r := by
  simp [State.setD, setF_f]

theorem halves_append (v : Double) : v.extractLsb' 32 32 ++ v.extractLsb' 0 32 = v := by
  rw [BitVec.extractLsb'_append_extractLsb'_eq_extractLsb' (by omega)]
  simp

@[simp] theorem setD_d_same (n : RegNum) (v : Double) : (s.setD n v).d n = v := by
  have h : n ≠ n + 1#5 := by bv_omega
  simp [State.d, setD_f, h, halves_append]

/-! ## Results delivered to the register file -/

@[simp] theorem putSingle_gpr (fd : RegNum) (r : FpResult) : (s.putSingle fd r).gpr = s.gpr := by cases r <;> rfl
@[simp] theorem putSingle_pc (fd : RegNum) (r : FpResult) : (s.putSingle fd r).pc = s.pc := by cases r <;> rfl
@[simp] theorem putSingle_npc (fd : RegNum) (r : FpResult) : (s.putSingle fd r).npc = s.npc := by cases r <;> rfl
@[simp] theorem putSingle_inDelay (fd : RegNum) (r : FpResult) : (s.putSingle fd r).inDelay = s.inDelay := by cases r <;> rfl
@[simp] theorem putSingle_hi (fd : RegNum) (r : FpResult) : (s.putSingle fd r).hi = s.hi := by cases r <;> rfl
@[simp] theorem putSingle_lo (fd : RegNum) (r : FpResult) : (s.putSingle fd r).lo = s.lo := by cases r <;> rfl
@[simp] theorem putSingle_fpcond (fd : RegNum) (r : FpResult) : (s.putSingle fd r).fpcond = s.fpcond := by cases r <;> rfl
@[simp] theorem putSingle_cause (fd : RegNum) (r : FpResult) : (s.putSingle fd r).cause = s.cause := by cases r <;> rfl
@[simp] theorem putSingle_status (fd : RegNum) (r : FpResult) : (s.putSingle fd r).status = s.status := by cases r <;> rfl
@[simp] theorem putSingle_llbit (fd : RegNum) (r : FpResult) : (s.putSingle fd r).llbit = s.llbit := by cases r <;> rfl
@[simp] theorem putSingle_lladdr (fd : RegNum) (r : FpResult) : (s.putSingle fd r).lladdr = s.lladdr := by cases r <;> rfl
@[simp] theorem putSingle_mem (fd : RegNum) (r : FpResult) : (s.putSingle fd r).mem = s.mem := by cases r <;> rfl
@[simp] theorem putSingle_outcome (fd : RegNum) (r : FpResult) : (s.putSingle fd r).outcome = s.outcome := by cases r <;> rfl
@[simp] theorem putSingle_memMap (fd : RegNum) (r : FpResult) : (s.putSingle fd r).memMap = s.memMap := by cases r <;> rfl
@[simp] theorem putSingle_endPc (fd : RegNum) (r : FpResult) : (s.putSingle fd r).endPc = s.endPc := by cases r <;> rfl
@[simp] theorem putSingle_irq (fd : RegNum) (r : FpResult) : (s.putSingle fd r).irq = s.irq := by cases r <;> rfl
@[simp] theorem putSingle_stepNo (fd : RegNum) (r : FpResult) : (s.putSingle fd r).stepNo = s.stepNo := by cases r <;> rfl
@[simp] theorem putSingle_x (fd : RegNum) (r : FpResult) (g : RegNum) : (s.putSingle fd r).x g = s.x g := by cases r <;> rfl

@[simp] theorem putDouble_gpr (fd : RegNum) (r : FpResult) : (s.putDouble fd r).gpr = s.gpr := by cases r <;> rfl
@[simp] theorem putDouble_pc (fd : RegNum) (r : FpResult) : (s.putDouble fd r).pc = s.pc := by cases r <;> rfl
@[simp] theorem putDouble_npc (fd : RegNum) (r : FpResult) : (s.putDouble fd r).npc = s.npc := by cases r <;> rfl
@[simp] theorem putDouble_inDelay (fd : RegNum) (r : FpResult) : (s.putDouble fd r).inDelay = s.inDelay := by cases r <;> rfl
@[simp] theorem putDouble_hi (fd : RegNum) (r : FpResult) : (s.putDouble fd r).hi = s.hi := by cases r <;> rfl
@[simp] theorem putDouble_lo (fd : RegNum) (r : FpResult) : (s.putDouble fd r).lo = s.lo := by cases r <;> rfl
@[simp] theorem putDouble_fpcond (fd : RegNum) (r : FpResult) : (s.putDouble fd r).fpcond = s.fpcond := by cases r <;> rfl
@[simp] theorem putDouble_cause (fd : RegNum) (r : FpResult) : (s.putDouble fd r).cause = s.cause := by cases r <;> rfl
@[simp] theorem putDouble_status (fd : RegNum) (r : FpResult) : (s.putDouble fd r).status = s.status := by cases r <;> rfl
@[simp] theorem putDouble_llbit (fd : RegNum) (r : FpResult) : (s.putDouble fd r).llbit = s.llbit := by cases r <;> rfl
@[simp] theorem putDouble_lladdr (fd : RegNum) (r : FpResult) : (s.putDouble fd r).lladdr = s.lladdr := by cases r <;> rfl
@[simp] theorem putDouble_mem (fd : RegNum) (r : FpResult) : (s.putDouble fd r).mem = s.mem := by cases r <;> rfl
@[simp] theorem putDouble_outcome (fd : RegNum) (r : FpResult) : (s.putDouble fd r).outcome = s.outcome := by cases r <;> rfl
@[simp] theorem putDouble_memMap (fd : RegNum) (r : FpResult) : (s.putDouble fd r).memMap = s.memMap := by cases r <;> rfl
@[simp] theorem putDouble_endPc (fd : RegNum) (r : FpResult) : (s.putDouble fd r).endPc = s.endPc := by cases r <;> rfl
@[simp] theorem putDouble_irq (fd : RegNum) (r : FpResult) : (s.putDouble fd r).irq = s.irq := by cases r <;> rfl
@[simp] theorem putDouble_stepNo (fd : RegNum) (r : FpResult) : (s.putDouble fd r).stepNo = s.stepNo := by cases r <;> rfl
@[simp] theorem putDouble_x (fd : RegNum) (r : FpResult) (g : RegNum) : (s.putDouble fd r).x g = s.x g := by cases r <;> rfl

@[simp] theorem putInt_gpr (fd : RegNum) (r : Option Word) : (s.putInt fd r).gpr = s.gpr := by cases r <;> rfl
@[simp] theorem putInt_pc (fd : RegNum) (r : Option Word) : (s.putInt fd r).pc = s.pc := by cases r <;> rfl
@[simp] theorem putInt_npc (fd : RegNum) (r : Option Word) : (s.putInt fd r).npc = s.npc := by cases r <;> rfl
@[simp] theorem putInt_inDelay (fd : RegNum) (r : Option Word) : (s.putInt fd r).inDelay = s.inDelay := by cases r <;> rfl
@[simp] theorem putInt_hi (fd : RegNum) (r : Option Word) : (s.putInt fd r).hi = s.hi := by cases r <;> rfl
@[simp] theorem putInt_lo (fd : RegNum) (r : Option Word) : (s.putInt fd r).lo = s.lo := by cases r <;> rfl
@[simp] theorem putInt_fpcond (fd : RegNum) (r : Option Word) : (s.putInt fd r).fpcond = s.fpcond := by cases r <;> rfl
@[simp] theorem putInt_cause (fd : RegNum) (r : Option Word) : (s.putInt fd r).cause = s.cause := by cases r <;> rfl
@[simp] theorem putInt_status (fd : RegNum) (r : Option Word) : (s.putInt fd r).status = s.status := by cases r <;> rfl
@[simp] theorem putInt_llbit (fd : RegNum) (r : Option Word) : (s.putInt fd r).llbit = s.llbit := by cases r <;> rfl
@[simp] theorem putInt_lladdr (fd : RegNum) (r : Option Word) : (s.putInt fd r).lladdr = s.lladdr := by cases r <;> rfl
@[simp] theorem putInt_mem (fd : RegNum) (r : Option Word) : (s.putInt fd r).mem = s.mem := by cases r <;> rfl
@[simp] theorem putInt_outcome (fd : RegNum) (r : Option Word) : (s.putInt fd r).outcome = s.outcome := by cases r <;> rfl
@[simp] theorem putInt_memMap (fd : RegNum) (r : Option Word) : (s.putInt fd r).memMap = s.memMap := by cases r <;> rfl
@[simp] theorem putInt_endPc (fd : RegNum) (r : Option Word) : (s.putInt fd r).endPc = s.endPc := by cases r <;> rfl
@[simp] theorem putInt_irq (fd : RegNum) (r : Option Word) : (s.putInt fd r).irq = s.irq := by cases r <;> rfl
@[simp] theorem putInt_stepNo (fd : RegNum) (r : Option Word) : (s.putInt fd r).stepNo = s.stepNo := by cases r <;> rfl
@[simp] theorem putInt_x (fd : RegNum) (r : Option Word) (g : RegNum) : (s.putInt fd r).x g = s.x g := by cases r <;> rfl

/-! ## Results under the parameter values of `Config` (R7) -/

@[simp] theorem putSingle_bits (fd : RegNum) (n : Nat) : s.putSingle fd (.bits n) = s.setF fd (BitVec.ofNat 32 n) := rfl
@[simp] theorem putSingle_nan (fd : RegNum) :
    s.putSingle fd .nan = (s.setF fd (nanSingle (Config.freeWord s.draws))).drawn 1 := rfl
@[simp] theorem putDouble_bits (fd : RegNum) (n : Nat) : s.putDouble fd (.bits n) = s.setD fd (BitVec.ofNat 64 n) := rfl
@[simp] theorem putDouble_nan (fd : RegNum) :
    s.putDouble fd .nan = (s.setD fd (nanDouble (Config.freeDouble s.draws))).drawn 1 := rfl
@[simp] theorem putInt_some (fd : RegNum) (v : Word) : s.putInt fd (some v) = s.setF fd v := rfl
@[simp] theorem putInt_none (fd : RegNum) : s.putInt fd none = (s.setF fd (Config.freeWord s.draws)).drawn 1 := rfl
@[simp] theorem putCond_eq (cccc : BitVec 4) (r : FpRelation) : s.putCond cccc r = s.setFpcond (fpCondition cccc r) := rfl
@[simp] theorem divByZero_eq :
    s.divByZero = (s.setHiLo (Config.freeWord (s.draws + 1)) (Config.freeWord s.draws)).drawn 2 := rfl

/-! ## The interrupt lines (R313) -/

@[simp] theorem irqAt_listed (values : List Byte) (ever : Byte) (t : Nat) :
    irqAt (.listed values ever) t = (values[t]?).getD ever := rfl
@[simp] theorem irqAt_free (t : Nat) : irqAt .free t = Config.freeIrq t := rfl
theorem irqNow_eq : s.irqNow = irqAt s.irq s.stepNo := rfl

/-- Any lines at the steps before `n` and one value from there on: every finite course of `IRQ` can be launched. -/
theorem irqAt_ofFn (irq : Nat → Byte) (n t : Nat) (ever : Byte) :
    irqAt (.listed ((List.range n).map irq) ever) t = if t < n then irq t else ever := by
  by_cases h : t < n <;> simp [irqAt, h]

/-! ## Registers a result does not touch -/

theorem putSingle_f_other {fd g : RegNum} (h : g ≠ fd) (r : FpResult) : (s.putSingle fd r).f g = s.f g := by
  cases r <;> simp [h]

theorem putInt_f_other {fd g : RegNum} (h : g ≠ fd) (r : Option Word) : (s.putInt fd r).f g = s.f g := by
  cases r <;> simp [h]

theorem putDouble_f_other {fd g : RegNum} (h : g ≠ fd) (h' : g ≠ fd + 1#5) (r : FpResult) :
    (s.putDouble fd r).f g = s.f g := by
  cases r <;> simp [setD_f, h, h']

end Sys2Proof.Machine
end

