-- ==== Sys2Proof/Laws/Ops.lean ====
section
/-! SUPPORT. For each shared operation, one lemma that says what it can do. -/

namespace Sys2Proof.Machine

set_option Elab.async false

/-! ## Cause and Status bits -/

theorem excCode_causeWith (c : Word) (bd : Bool) (code : BitVec 5) : (causeWith c bd code).extractLsb' 2 5 = code := by
  apply BitVec.eq_of_getLsbD_eq
  intro i hi
  interval_cases i <;> cases bd <;> simp [causeWith, place]

theorem bd_causeWith (c : Word) (bd : Bool) (code : BitVec 5) : (causeWith c bd code).getLsbD 31 = bd := by
  cases bd <;> simp [causeWith, place]

theorem ip_causeWith (c : Word) (bd : Bool) (code : BitVec 5) :
    (causeWith c bd code).extractLsb' 8 8 = c.extractLsb' 8 8 := by
  apply BitVec.eq_of_getLsbD_eq
  intro i hi
  interval_cases i <;> cases bd <;> simp [causeWith, place]

/-- Exception entry leaves the fieldless bits of Cause 0 (R35). -/
theorem reserved_causeWith {c : Word} (bd : Bool) (code : BitVec 5) (h : c &&& 0x7FFF0083#32 = 0#32) :
    causeWith c bd code &&& 0x7FFF0083#32 = 0#32 := by
  apply BitVec.eq_of_getLsbD_eq
  intro i hi
  have hb : (c &&& 0x7FFF0083#32).getLsbD i = false := by rw [h]; simp
  clear h
  interval_cases i <;> cases bd <;> simp_all [causeWith, place]

theorem ip_causeWithIp (c : Word) (ip : Byte) : (causeWithIp c ip).extractLsb' 8 8 = ip := by
  apply BitVec.eq_of_getLsbD_eq
  intro i hi
  interval_cases i <;> simp [causeWithIp, place]

theorem excCode_causeWithIp (c : Word) (ip : Byte) : (causeWithIp c ip).extractLsb' 2 5 = c.extractLsb' 2 5 := by
  apply BitVec.eq_of_getLsbD_eq
  intro i hi
  interval_cases i <;> simp [causeWithIp, place]

theorem bd_causeWithIp (c : Word) (ip : Byte) : (causeWithIp c ip).getLsbD 31 = c.getLsbD 31 := by
  simp [causeWithIp, place]

/-- Sampling the lines changes no other bit of Cause (R35, D21). -/
theorem kept_causeWithIp (c : Word) (ip : Byte) : causeWithIp c ip &&& 0xFFFF00FF#32 = c &&& 0xFFFF00FF#32 := by
  apply BitVec.eq_of_getLsbD_eq
  intro i hi
  interval_cases i <;> simp [causeWithIp, place]

/-- Sampling the lines leaves the fieldless bits of Cause 0 (R35). -/
theorem reserved_causeWithIp {c : Word} (ip : Byte) (h : c &&& 0x7FFF0083#32 = 0#32) :
    causeWithIp c ip &&& 0x7FFF0083#32 = 0#32 := by
  apply BitVec.eq_of_getLsbD_eq
  intro i hi
  have hb : (c &&& 0x7FFF0083#32).getLsbD i = false := by rw [h]; simp
  clear h
  interval_cases i <;> simp_all [causeWithIp, place]

/-! ## Frames -/

theorem Changes.refl (what : Footprint) (s : State) : Changes what s s :=
  ⟨fun _ _ => rfl, fun _ _ => rfl, fun _ => rfl, fun _ => rfl, fun _ => rfl, fun _ => ⟨rfl, rfl⟩, fun _ => rfl,
    fun _ _ => rfl, rfl, rfl, rfl, rfl⟩

/-- Moving the program counters on changes nothing a footprint speaks of. -/
theorem Changes.advance {what : Footprint} {s u : State} (h : Changes what s u) : Changes what s u.advance :=
  ⟨h.gprs, h.fprs, h.hi, h.lo, h.fpcond, h.link, h.draws, h.bytes, h.memMap, h.endPc, h.irq, h.stepNo⟩

theorem Changes.transfer {what : Footprint} {s u : State} (h : Changes what s u) (target : Option Word) :
    Changes what s (u.transfer target) :=
  ⟨h.gprs, h.fprs, h.hi, h.lo, h.fpcond, h.link, h.draws, h.bytes, h.memMap, h.endPc, h.irq, h.stepNo⟩

theorem changes_setX (s : State) (r : RegNum) (v : Word) : Changes { gprs := [r] } s (s.setX r v) :=
  { Changes.refl { gprs := [r] } s with
    gprs := fun g hg => setX_x_other s (by simpa using hg) v }

theorem changes_setF (s : State) (r : RegNum) (v : Word) : Changes { fprs := [r] } s (s.setF r v) :=
  { Changes.refl { fprs := [r] } s with
    fprs := fun g hg => setF_f_other s (by simpa using hg) v }

theorem changes_setD (s : State) (n : RegNum) (v : Double) : Changes { fprs := [n, n + 1] } s (s.setD n v) :=
  { Changes.refl { fprs := [n, n + 1] } s with
    fprs := fun g hg => by
      simp only [List.mem_cons, List.not_mem_nil, or_false, not_or] at hg
      simp only [setD_f]
      rw [if_neg (by simpa using hg.2), if_neg hg.1] }

/-! ## Taking an exception -/

/-- What exception entry does, line by line of R320. -/
theorem entered_takeException (s : State) (e : Exc) (info : Word) : Entered e info s (s.takeException e info) where
  excCode := excCode_causeWith _ _ _
  bd := bd_causeWith _ _ _
  ip := ip_causeWith _ _ _
  el := rfl
  llbit := rfl
  lladdr := rfl
  pcs := ⟨rfl, rfl, rfl⟩
  rest := { Changes.refl { link := true } s with link := fun h => nomatch h }
  outcome := rfl

/-! ## Completing an instruction -/

@[simp] theorem raise_eq (e : Exc) (info : Word) (s : State) : raise e info s = .next (s.takeException e info) := rfl

@[simp] theorem instrWord_eq (i : Instr) (s : State) : instrWord i s = encode i := rfl

@[simp] theorem mapOnly_eq (mnemonic : String) (r : Result) : mapOnly mnemonic r = r := rfl

@[simp] theorem complete_ok (s t : State) : complete s (.ok t) = .next t.advance := rfl

@[simp] theorem complete_raise (s : State) (e : Exc) (info : Word) :
    complete s (.error (.raise e info)) = .next (s.takeException e info) := rfl

@[simp] theorem complete_refuse (s : State) (r : Refusal) : complete s (.error (.refuse r)) = .refused r := rfl

theorem straight_advance (s : State) : Straight s s.advance := ⟨rfl, rfl, rfl⟩

theorem branched_transfer (s : State) (target : Option Word) :
    Branched (target.getD (s.npc + 4)) s (s.transfer target) := ⟨rfl, rfl, rfl⟩

theorem transferTo_outside {s : State} (h : s.inDelay = false) (target : Option Word) :
    transferTo target s = .next (s.transfer target) := by simp [transferTo, h]

theorem transferTo_inside {s : State} (h : s.inDelay = true) (target : Option Word) :
    transferTo target s = .refused .controlTransferInDelaySlot := by simp [transferTo, h]

/-- An instruction that completes with `u`, where `u` keeps the program counters and control state of `s`. -/
theorem completes_of {i : Instr} {s u : State} {what : Footprint} {result : State → Prop}
    (hx : exec i s = .next u.advance) (hr : result u.advance) (hc : Changes what s u) (hk : ControlKept s u)
    (hp : u.npc = s.npc) : Completes i s what result :=
  ⟨u.advance, hx, hr, hc.advance, ⟨hk.cause, hk.status, hk.outcome⟩, ⟨by simp [hp], by simp [hp], rfl⟩⟩

theorem takes_of {i : Instr} {s : State} {e : Exc} {info : Word}
    (hx : exec i s = .next (s.takeException e info)) : Takes i s e info :=
  ⟨_, hx, entered_takeException s e info⟩

/-! ## Checked accesses -/

theorem aligned_iff (a : Word) (n : Nat) : aligned a n = true ↔ a.toNat % n = 0 := by simp [aligned]

theorem mappedAll_iff (s : State) (k : Access) (a : Word) (n : Nat) :
    mappedAll s.memMap k a n = true ↔ Allowed s k a n := by
  simp [mappedAll, Allowed]

theorem checkLoad_ok {s : State} {a : Word} {n : Nat} (ha : a.toNat % n = 0) (hm : Allowed s .read a n) :
    checkLoad s a n = .ok () := by
  simp [checkLoad, alignedLoad, mappedLoad, aligned_iff, ha, (mappedAll_iff s .read a n).mpr hm, Except.bind]

theorem checkLoad_misaligned {s : State} {a : Word} {n : Nat} (ha : a.toNat % n ≠ 0) :
    checkLoad s a n = .error (.raise .adEL a) := by
  simp [checkLoad, alignedLoad, aligned_iff, ha, Except.bind]

theorem checkLoad_unmapped {s : State} {a : Word} {n : Nat} (ha : a.toNat % n = 0) (hm : ¬ Allowed s .read a n) :
    checkLoad s a n = .error (.raise .dbe a) := by
  simp [checkLoad, alignedLoad, mappedLoad, aligned_iff, ha, mt (mappedAll_iff s .read a n).mp hm, Except.bind]

theorem checkStore_ok {s : State} {a : Word} {n : Nat} (ha : a.toNat % n = 0) (hm : Allowed s .write a n) :
    checkStore s a n = .ok () := by
  simp [checkStore, alignedStore, mappedStore, aligned_iff, ha, (mappedAll_iff s .write a n).mpr hm, Except.bind]

theorem checkStore_misaligned {s : State} {a : Word} {n : Nat} (ha : a.toNat % n ≠ 0) :
    checkStore s a n = .error (.raise .adES a) := by
  simp [checkStore, alignedStore, aligned_iff, ha, Except.bind]

theorem checkStore_unmapped {s : State} {a : Word} {n : Nat} (ha : a.toNat % n = 0) (hm : ¬ Allowed s .write a n) :
    checkStore s a n = .error (if inText a then .refuse .storeIntoText else .raise .dbe a) := by
  simp only [checkStore, alignedStore, mappedStore, aligned_iff, ha, mt (mappedAll_iff s .write a n).mp hm, Except.bind,
    if_true, Bool.false_eq_true, if_false]
  split <;> rfl

/-- A store that passes its checks is aligned and allowed. -/
theorem checkStore_ok_iff {s : State} {a : Word} {n : Nat} :
    checkStore s a n = .ok () ↔ a.toNat % n = 0 ∧ Allowed s .write a n := by
  constructor
  · intro h
    by_cases ha : a.toNat % n = 0
    · refine ⟨ha, ?_⟩
      by_contra hm
      rw [checkStore_unmapped ha hm] at h
      cases h
    · rw [checkStore_misaligned ha] at h; cases h
  · exact fun h => checkStore_ok h.1 h.2

theorem checkLoad_ok_iff {s : State} {a : Word} {n : Nat} :
    checkLoad s a n = .ok () ↔ a.toNat % n = 0 ∧ Allowed s .read a n := by
  constructor
  · intro h
    by_cases ha : a.toNat % n = 0
    · refine ⟨ha, ?_⟩
      by_contra hm
      rw [checkLoad_unmapped ha hm] at h
      cases h
    · rw [checkLoad_misaligned ha] at h; cases h
  · exact fun h => checkLoad_ok h.1 h.2

theorem loadByte_ok {s : State} {a : Word} (hm : Allowed s .read a 1) : loadByte s a = .ok (s.mem.read a) := by
  simp [loadByte, checkLoad_ok (Nat.mod_one _) hm, Except.map]

theorem loadHalf_ok {s : State} {a : Word} (ha : a.toNat % 2 = 0) (hm : Allowed s .read a 2) :
    loadHalf s a = .ok (s.mem.readHalf a) := by
  simp [loadHalf, checkLoad_ok ha hm, Except.map]

theorem loadWord_ok {s : State} {a : Word} (ha : a.toNat % 4 = 0) (hm : Allowed s .read a 4) :
    loadWord s a = .ok (s.mem.readWord a) := by
  simp [loadWord, checkLoad_ok ha hm, Except.map]

theorem storeByte_ok {s : State} {a : Word} (hm : Allowed s .write a 1) (v : Byte) :
    storeByte s a v = .ok (s.setMem (s.mem.write a v)) := by
  simp [storeByte, checkStore_ok (Nat.mod_one _) hm, Except.map]

theorem storeHalf_ok {s : State} {a : Word} (ha : a.toNat % 2 = 0) (hm : Allowed s .write a 2) (v : Half) :
    storeHalf s a v = .ok (s.setMem (s.mem.writeHalf a v)) := by
  simp [storeHalf, checkStore_ok ha hm, Except.map]

theorem storeWord_ok {s : State} {a : Word} (ha : a.toNat % 4 = 0) (hm : Allowed s .write a 4) (v : Word) :
    storeWord s a v = .ok (s.setMem (s.mem.writeWord a v)) := by
  simp [storeWord, checkStore_ok ha hm, Except.map]

theorem evenOnly_ok {ns : List RegNum} (h : ns.all namesDouble = true) : evenOnly ns = .ok () := by simp [evenOnly, h]

theorem evenOnly_odd {ns : List RegNum} (h : ns.all namesDouble = false) :
    evenOnly ns = .error (.refuse .oddDoubleRegister) := by simp [evenOnly, h]

/-! ## One step -/

/-- What one step can do, from a machine that still runs (R27). -/
theorem step_cases {s : State} (h : s.outcome = .running) :
    (s.sampleIrq.atEnd = true ∧ step s = .next s.sampleIrq.finish) ∨
    (s.sampleIrq.atEnd = false ∧ s.sampleIrq.interruptCondition = true ∧
      step s = .next (s.sampleIrq.takeException .int (s.sampleIrq.ip.setWidth 32))) ∨
    (s.sampleIrq.atEnd = false ∧ s.sampleIrq.interruptCondition = false ∧
      ((∃ i, fetchInstr s.sampleIrq = .ok i ∧ step s = exec i s.sampleIrq) ∨
       (∃ e info, fetchInstr s.sampleIrq = .error (.raise e info) ∧
          (e = .adEL ∨ e = .ibe ∨ e = .ri) ∧ step s = .next (s.sampleIrq.takeException e info)))) := by
  unfold step
  rw [if_pos h]
  by_cases hend : s.sampleIrq.atEnd = true
  · exact .inl ⟨hend, by rw [if_pos hend]⟩
  rw [if_neg hend]
  by_cases hint : s.sampleIrq.interruptCondition = true
  · exact .inr (.inl ⟨by simpa using hend, hint, by rw [if_pos hint]; rfl⟩)
  rw [if_neg hint]
  refine .inr (.inr ⟨by simpa using hend, by simpa using hint, ?_⟩)
  cases hf : fetchInstr s.sampleIrq with
  | ok i => exact .inl ⟨i, rfl, rfl⟩
  | error stop =>
    have : ∃ e info, stop = .raise e info ∧ (e = .adEL ∨ e = .ibe ∨ e = .ri) := by
      unfold fetchInstr fetchWord at hf
      split at hf
      · cases hf; exact ⟨_, _, rfl, .inl rfl⟩
      · split at hf
        · cases hf; exact ⟨_, _, rfl, .inr (.inl rfl)⟩
        · unfold decodeFetched at hf
          simp only [Except.bind] at hf
          split at hf
          · cases hf
          · cases hf; exact ⟨_, _, rfl, .inr (.inr rfl)⟩
    obtain ⟨e, info, rfl, he⟩ := this
    exact .inr ⟨e, info, rfl, he, rfl⟩

theorem step_after_end {s : State} (h : s.outcome ≠ .running) : step s = .fault .runIsOver := by
  simp [step, h]

end Sys2Proof.Machine
end

