-- ==== Sys2Proof/Laws/Exec.lean ====
section
/-! SUPPORT. What any instruction can do, said once: it completes with allowed writes, transfers, takes an exception, or is
refused. Proofs about every instruction cite `exec_ends` and unfold no meaning. -/

namespace Sys2Proof.Machine

set_option Elab.async false

/-- `u` is `s` with the writes of an instruction that may complete. -/
structure Writes (s u : State) : Prop where
  pc      : u.pc = s.pc
  npc     : u.npc = s.npc
  inDelay : u.inDelay = s.inDelay
  cause   : u.cause = s.cause
  status  : u.status = s.status
  outcome : u.outcome = s.outcome
  memMap  : u.memMap = s.memMap
  endPc   : u.endPc = s.endPc
  irq     : u.irq = s.irq
  stepNo  : u.stepNo = s.stepNo
  zero    : u.gpr[0] = s.gpr[0]
  wf      : s.mem.wf = true → u.mem.wf = true
  bytes   : ∀ a, u.mem.read a ≠ s.mem.read a → mapped s.memMap .write a = true
  link    : u.llbit = true → u.lladdr.toNat % 4 = 0 ∨ (s.llbit = true ∧ u.lladdr = s.lladdr)

/-- The exceptions an instruction itself can raise; the others are the step's own, or FPE, which nothing raises (R312). -/
def Raisable (e : Exc) : Prop := e ≠ .fpe ∧ e ≠ .int ∧ e ≠ .ibe ∧ e ≠ .ri

/-- How an instruction can end from `s`. -/
inductive Ends (s : State) : Result → Prop where
  | done (u : State) (h : Writes s u) : Ends s (.next u.advance)
  | transfer (u : State) (target : Option Word) (h : Writes s u) (hd : s.inDelay = false) :
      Ends s (.next (u.transfer target))
  | raise (e : Exc) (info : Word) (he : Raisable e) : Ends s (.next (s.takeException e info))
  | refuse (r : Refusal) : Ends s (.refused r)

theorem Writes.refl (s : State) : Writes s s :=
  ⟨rfl, rfl, rfl, rfl, rfl, rfl, rfl, rfl, rfl, rfl, rfl, id, fun _ h => absurd rfl h, fun h => .inr ⟨h, rfl⟩⟩

/-- Writes that leave memory, the reservation and the control state alone. -/
theorem Writes.of_registers {s u : State} (hpc : u.pc = s.pc) (hnpc : u.npc = s.npc) (hd : u.inDelay = s.inDelay)
    (hc : u.cause = s.cause) (hs : u.status = s.status) (ho : u.outcome = s.outcome) (hm : u.mem = s.mem)
    (hl : u.llbit = s.llbit) (ha : u.lladdr = s.lladdr) (h1 : u.memMap = s.memMap) (h2 : u.endPc = s.endPc)
    (h3 : u.irq = s.irq) (h4 : u.stepNo = s.stepNo) (hz : u.gpr[0] = s.gpr[0]) : Writes s u :=
  ⟨hpc, hnpc, hd, hc, hs, ho, h1, h2, h3, h4, hz, by rw [hm]; exact id, fun a h => absurd (by rw [hm]) h,
    fun h => .inr ⟨hl ▸ h, ha⟩⟩

theorem Writes.setX {s u : State} (h : Writes s u) (r : RegNum) (v : Word) : Writes s (u.setX r v) :=
  { h with zero := (setX_gpr_zero u r v).trans h.zero }

theorem Writes.setF {s u : State} (h : Writes s u) (r : RegNum) (v : Word) : Writes s (u.setF r v) := { h with }
theorem Writes.setD {s u : State} (h : Writes s u) (r : RegNum) (v : Double) : Writes s (u.setD r v) := { h with }
theorem Writes.setHiLo {s u : State} (h : Writes s u) (a b : Word) : Writes s (u.setHiLo a b) := { h with }
theorem Writes.setHi {s u : State} (h : Writes s u) (a : Word) : Writes s (u.setHi a) := { h with }
theorem Writes.setLo {s u : State} (h : Writes s u) (a : Word) : Writes s (u.setLo a) := { h with }
theorem Writes.setFpcond {s u : State} (h : Writes s u) (b : Bool) : Writes s (u.setFpcond b) := { h with }
theorem Writes.drawn {s u : State} (h : Writes s u) (n : Nat) : Writes s (u.drawn n) := { h with }
theorem Writes.clearLink {s u : State} (h : Writes s u) : Writes s u.clearLink := { h with link := fun e => nomatch e }

theorem Writes.reserve {s u : State} (h : Writes s u) {a : Word} (ha : a.toNat % 4 = 0) : Writes s (u.reserve a) :=
  { h with link := fun _ => .inl ha }

theorem Writes.putSingle {s u : State} (h : Writes s u) (fd : RegNum) (r : FpResult) : Writes s (u.putSingle fd r) := by
  cases r
  · exact h.setF _ _
  · exact (h.setF _ _).drawn 1

theorem Writes.putDouble {s u : State} (h : Writes s u) (fd : RegNum) (r : FpResult) : Writes s (u.putDouble fd r) := by
  cases r
  · exact h.setD _ _
  · exact (h.setD _ _).drawn 1

theorem Writes.putInt {s u : State} (h : Writes s u) (fd : RegNum) (r : Option Word) : Writes s (u.putInt fd r) := by
  cases r
  · exact (h.setF _ _).drawn 1
  · exact h.setF _ _

theorem Writes.setProduct {s u : State} (h : Writes s u) (p : Double) : Writes s (u.setProduct p) := h.setHiLo _ _

theorem Writes.divByZero {s u : State} (h : Writes s u) : Writes s u.divByZero := (h.setHiLo _ _).drawn 2

/-- Memory written only where the map allows it. -/
theorem Writes.setMem {s u : State} (h : Writes s u) {m : Memory} (hwf : s.mem.wf = true → m.wf = true)
    (hb : ∀ a, m.read a ≠ s.mem.read a → mapped s.memMap .write a = true) : Writes s (u.setMem m) :=
  { h with wf := hwf, bytes := hb }

theorem allowed_zero {s : State} {k : Access} {a : Word} {n : Nat} (h : Allowed s k a n) (hn : 0 < n) :
    mapped s.memMap k a = true := by simpa using h 0 hn

theorem Writes.byte {s u : State} (h : Writes s u) {a : Word} (ha : Allowed s .write a 1) (v : Byte) :
    Writes s (u.setMem (s.mem.write a v)) :=
  h.setMem (fun hw => wf_write hw _ _) fun b hb => by
    by_cases e : b = a
    · subst e; exact allowed_zero ha (by omega)
    · exact absurd (read_write_other e _ _) hb

theorem Writes.half {s u : State} (h : Writes s u) {a : Word} (ha : Allowed s .write a 2) (v : Half) :
    Writes s (u.setMem (s.mem.writeHalf a v)) :=
  h.setMem (fun hw => wf_writeHalf hw _ _) fun b hb => by
    by_cases e0 : b = a
    · subst e0; exact allowed_zero ha (by omega)
    by_cases e1 : b = a + 1
    · subst e1; exact ha 1 (by omega)
    exact absurd (read_writeHalf_other e0 e1 _ _) hb

theorem Writes.word {s u : State} (h : Writes s u) {a : Word} (ha : Allowed s .write a 4) (v : Word) :
    Writes s (u.setMem (s.mem.writeWord a v)) :=
  h.setMem (fun hw => wf_writeWord hw _ _) fun b hb => by
    by_cases e0 : b = a
    · subst e0; exact allowed_zero ha (by omega)
    by_cases e1 : b = a + 1
    · subst e1; exact ha 1 (by omega)
    by_cases e2 : b = a + 2
    · subst e2; exact ha 2 (by omega)
    by_cases e3 : b = a + 3
    · subst e3; exact ha 3 (by omega)
    exact absurd (read_writeWord_other e0 e1 e2 e3 _ _) hb

theorem Writes.double {s u : State} (h : Writes s u) {a : Word} (ha : Allowed s .write a 8) (v : Double) :
    Writes s (u.setMem (s.mem.writeDouble a v)) :=
  h.setMem (fun hw => wf_writeDouble hw _ _) fun b hb => by
    by_cases e : ∃ k, k < 8 ∧ b = a + BitVec.ofNat 32 k
    · obtain ⟨k, hk, rfl⟩ := e; exact ha k hk
    · exact absurd (read_writeDouble_other (fun k hk he => e ⟨k, hk, he⟩) _ _) hb

/-! ## The checks of an instruction -/

/-- What an instruction's checks may answer: allowed writes, a refusal, or an exception an instruction can raise. -/
def Good (s : State) : Except Stop State → Prop
  | .ok u => Writes s u
  | .error (.raise e _) => Raisable e
  | .error (.refuse _) => True

theorem ends_complete {s : State} {r : Except Stop State} (h : Good s r) : Ends s (complete s r) := by
  cases r with
  | ok u => exact .done u h
  | error stop =>
    cases stop with
    | raise e info => exact .raise e info h
    | refuse r => exact .refuse r

theorem ends_done {s u : State} (h : Writes s u) : Ends s (done u) := .done u h

theorem ends_raise (s : State) {e : Exc} (info : Word) (he : Raisable e) : Ends s (Machine.raise e info s) := .raise e info he

theorem ends_transferTo {s u : State} (h : Writes s u) (target : Option Word) : Ends s (transferTo target u) := by
  unfold transferTo
  rw [h.inDelay]
  split
  · exact .refuse _
  · next hd => exact .transfer u target h (by simpa using hd)

theorem ends_branchIf (s : State) (taken : Bool) (imm : Half) : Ends s (branchIf taken imm s) :=
  ends_transferTo (Writes.refl s) _

/-- What follows a load's checks may rely on them. -/
theorem good_load {s : State} {a : Word} {n : Nat} {f : Unit → Except Stop State}
    (h : a.toNat % n = 0 → Allowed s .read a n → Good s (f ())) : Good s ((checkLoad s a n).bind f) := by
  by_cases ha : a.toNat % n = 0
  · by_cases hm : Allowed s .read a n
    · simpa [checkLoad_ok ha hm, Except.bind] using h ha hm
    · simp [checkLoad_unmapped ha hm, Except.bind, Good, Raisable]
  · simp [checkLoad_misaligned ha, Except.bind, Good, Raisable]

/-- What follows a store's checks may rely on them. -/
theorem good_store {s : State} {a : Word} {n : Nat} {f : Unit → Except Stop State}
    (h : a.toNat % n = 0 → Allowed s .write a n → Good s (f ())) : Good s ((checkStore s a n).bind f) := by
  by_cases ha : a.toNat % n = 0
  · by_cases hm : Allowed s .write a n
    · simpa [checkStore_ok ha hm, Except.bind] using h ha hm
    · rw [checkStore_unmapped ha hm]
      split <;> simp [Except.bind, Good, Raisable]
  · simp [checkStore_misaligned ha, Except.bind, Good, Raisable]

theorem good_evenOnly {s : State} {ns : List RegNum} {f : Unit → Except Stop State}
    (h : Good s (f ())) : Good s ((evenOnly ns).bind f) := by
  unfold evenOnly
  split
  · simpa [Except.bind] using h
  · simp [Except.bind, Good]

theorem good_loadByte {s : State} {a : Word} {f : Byte → Except Stop State} (h : ∀ v, Good s (f v)) :
    Good s ((loadByte s a).bind f) := by
  have := good_load (s := s) (a := a) (n := 1) (f := fun _ => f (s.mem.read a)) fun _ _ => h _
  revert this; unfold loadByte; cases checkLoad s a 1 <;> exact id

theorem good_loadHalf {s : State} {a : Word} {f : Half → Except Stop State} (h : ∀ v, Good s (f v)) :
    Good s ((loadHalf s a).bind f) := by
  have := good_load (s := s) (a := a) (n := 2) (f := fun _ => f (s.mem.readHalf a)) fun _ _ => h _
  revert this; unfold loadHalf; cases checkLoad s a 2 <;> exact id

theorem good_loadWord {s : State} {a : Word} {f : Word → Except Stop State}
    (h : a.toNat % 4 = 0 → ∀ v, Good s (f v)) : Good s ((loadWord s a).bind f) := by
  have := good_load (s := s) (a := a) (n := 4) (f := fun _ => f (s.mem.readWord a)) fun ha _ => h ha _
  revert this; unfold loadWord; cases checkLoad s a 4 <;> exact id

theorem map_eq_bind {α β : Type} (r : Except Stop α) (f : α → β) : r.map f = r.bind fun a => .ok (f a) := by
  cases r <;> rfl

theorem good_storeByte (s : State) (a : Word) (v : Byte) : Good s (storeByte s a v) := by
  rw [storeByte, map_eq_bind]; exact good_store fun _ hm => (Writes.refl s).byte hm v

theorem good_storeHalf (s : State) (a : Word) (v : Half) : Good s (storeHalf s a v) := by
  rw [storeHalf, map_eq_bind]; exact good_store fun _ hm => (Writes.refl s).half hm v

theorem good_storeWord (s : State) (a : Word) (v : Word) : Good s (storeWord s a v) := by
  rw [storeWord, map_eq_bind]; exact good_store fun _ hm => (Writes.refl s).word hm v

theorem ends_withDoubles {s u : State} (ns : List RegNum) (h : Writes s u) : Ends s (withDoubles ns s u) := by
  rw [withDoubles, map_eq_bind]; exact ends_complete (good_evenOnly h)

theorem ends_compareDouble (cccc : BitVec 4) (ft fs : RegNum) (s : State) : Ends s (compareDouble cccc ft fs s) := by
  rw [compareDouble, map_eq_bind]; exact ends_complete (good_evenOnly ((Writes.refl s).setFpcond _))

theorem ends_compareSingle (cccc : BitVec 4) (ft fs : RegNum) (s : State) : Ends s (compareSingle cccc ft fs s) :=
  ends_done ((Writes.refl s).setFpcond _)

theorem ends_trapIf (c : Bool) (w : Word) (s : State) : Ends s (trapIf c w s) := by
  unfold trapIf; split
  · exact ends_raise s w (by simp [Raisable])
  · exact ends_done (Writes.refl s)

theorem ends_loadPart (merge : Nat → Word → Word → Word) (rt : RegNum) (a : Word) (s : State) :
    Ends s (loadPart merge rt a s) := by
  rw [loadPart, map_eq_bind]; exact ends_complete (good_loadWord fun _ v => (Writes.refl s).setX rt _)

theorem ends_storePart (merge : Nat → Word → Word → Word) (rt : RegNum) (a : Word) (s : State) :
    Ends s (storePart merge rt a s) :=
  ends_complete (good_loadWord fun _ _ => good_storeWord s _ _)

theorem Writes.storeConditional {s : State} (rt : RegNum) {a : Word} (h : Allowed s .write a 4) :
    Writes s (storeConditional rt a s) := by
  unfold Machine.storeConditional
  split
  · split
    · exact (((Writes.refl s).setX rt _).clearLink).drawn 1
    · exact (((Writes.refl s).word h _).setX rt _).clearLink.drawn 1
  · exact ((Writes.refl s).setX rt _).clearLink

theorem ends_sc (rs rt : RegNum) (imm : Half) (s : State) : Ends s (execSc rs rt imm s) := by
  refine ends_complete (good_store fun _ hm => ?_)
  unfold sameReservation
  split
  · simp [Except.map, Good]
  · exact Writes.storeConditional rt hm

theorem ends_ldc1 (rs rt : RegNum) (imm : Half) (s : State) : Ends s (execLdc1 rs rt imm s) := by
  refine ends_complete ?_
  unfold alignedLoad
  split
  · refine good_evenOnly ?_
    unfold mappedLoad
    split
    · exact (Writes.refl s).setD rt _
    · simp [Except.map, Good, Raisable]
  · simp [Except.bind, Good, Raisable]

theorem ends_sdc1 (rs rt : RegNum) (imm : Half) (s : State) : Ends s (execSdc1 rs rt imm s) := by
  refine ends_complete ?_
  unfold alignedStore
  split
  · refine good_evenOnly ?_
    unfold mappedStore
    split
    · next hm => exact (Writes.refl s).double ((mappedAll_iff s .write _ 8).mp hm) _
    · split <;> simp [Except.map, Good, Raisable]
  · simp [Except.bind, Good, Raisable]

theorem ends_mfc0 (rt rd : RegNum) (s : State) : Ends s (execMfc0 rt rd s) := by
  unfold execMfc0
  split
  · refine ends_complete ?_
    unfold controlRegister
    split
    · exact (Writes.refl s).setX rt _
    · split
      · exact (Writes.refl s).setX rt _
      · simp [Except.map, Good]
  · exact ends_raise s _ (by simp [Raisable])

/-- Integer results that may overflow. -/
theorem ends_overflow {s u : State} (c : Bool) (w : Word) (h : Writes s u) :
    Ends s (if c then Machine.raise .ov w s else done u) := by
  split
  · exact ends_raise s w (by simp [Raisable])
  · exact ends_done h

theorem writes_ite {s u v : State} (c : Prop) [Decidable c] (hu : Writes s u) (hv : Writes s v) :
    Writes s (if c then u else v) := by split <;> assumption

/-! ## Every instruction -/

/-- What any instruction can do. -/
theorem exec_ends (i : Instr) (s : State) : Ends s (exec i s) := by
  have w := Writes.refl s
  cases i <;> simp only [exec]
  case add => exact ends_overflow _ _ (w.setX _ _)
  case addi => exact ends_overflow _ _ (w.setX _ _)
  case addiu => exact ends_done (w.setX _ _)
  case addu => exact ends_done (w.setX _ _)
  case and => exact ends_done (w.setX _ _)
  case andi => exact ends_done (w.setX _ _)
  case beq => exact ends_branchIf s _ _
  case bne => exact ends_branchIf s _ _
  case j => exact ends_transferTo w _
  case jal => exact ends_transferTo (w.setX _ _) _
  case jr => exact ends_transferTo w _
  case lbu => unfold execLbu; simp only [map_eq_bind]; exact ends_complete (good_loadByte fun _ => w.setX _ _)
  case lhu => unfold execLhu; simp only [map_eq_bind]; exact ends_complete (good_loadHalf fun _ => w.setX _ _)
  case ll => unfold execLl; rw [map_eq_bind]; exact ends_complete (good_loadWord fun ha _ => (w.setX _ _).reserve ha)
  case lui => exact ends_done (w.setX _ _)
  case lw => unfold execLw; rw [map_eq_bind]; exact ends_complete (good_loadWord fun _ _ => w.setX _ _)
  case nor => exact ends_done (w.setX _ _)
  case or => exact ends_done (w.setX _ _)
  case ori => exact ends_done (w.setX _ _)
  case slt => exact ends_done (w.setX _ _)
  case slti => exact ends_done (w.setX _ _)
  case sltiu => exact ends_done (w.setX _ _)
  case sltu => exact ends_done (w.setX _ _)
  case sll => exact ends_done (w.setX _ _)
  case srl => exact ends_done (w.setX _ _)
  case sb => exact ends_complete (good_storeByte _ _ _)
  case sc => exact ends_sc _ _ _ s
  case sh => exact ends_complete (good_storeHalf _ _ _)
  case sw => exact ends_complete (good_storeWord _ _ _)
  case sub => exact ends_overflow _ _ (w.setX _ _)
  case subu => exact ends_done (w.setX _ _)
  case bc1t => exact ends_branchIf s _ _
  case bc1f => exact ends_branchIf s _ _
  case div => exact ends_done (writes_ite _ w.divByZero (w.setHiLo _ _))
  case divu => exact ends_done (writes_ite _ w.divByZero (w.setHiLo _ _))
  case addS => exact ends_done (w.putSingle _ _)
  case addD => exact ends_withDoubles _ (w.putDouble _ _)
  case subS => exact ends_done (w.putSingle _ _)
  case subD => exact ends_withDoubles _ (w.putDouble _ _)
  case mulS => exact ends_done (w.putSingle _ _)
  case mulD => exact ends_withDoubles _ (w.putDouble _ _)
  case divS => exact ends_done (w.putSingle _ _)
  case divD => exact ends_withDoubles _ (w.putDouble _ _)
  case cEqS => exact ends_compareSingle _ _ _ s
  case cEqD => exact ends_compareDouble _ _ _ s
  case cLtS => exact ends_compareSingle _ _ _ s
  case cLtD => exact ends_compareDouble _ _ _ s
  case cLeS => exact ends_compareSingle _ _ _ s
  case cLeD => exact ends_compareDouble _ _ _ s
  case lwc1 => unfold execLwc1; rw [map_eq_bind]; exact ends_complete (good_loadWord fun _ _ => w.setF _ _)
  case ldc1 => exact ends_ldc1 _ _ _ s
  case mfhi => exact ends_done (w.setX _ _)
  case mflo => exact ends_done (w.setX _ _)
  case mfc0 => exact ends_mfc0 _ _ s
  case mult => exact ends_done (w.setProduct _)
  case multu => exact ends_done (w.setProduct _)
  case sra => exact ends_done (w.setX _ _)
  case swc1 => exact ends_complete (good_storeWord _ _ _)
  case sdc1 => exact ends_sdc1 _ _ _ s
  case blez => exact ends_branchIf s _ _
  case bgtz => exact ends_branchIf s _ _
  case xori => exact ends_done (w.setX _ _)
  case lb => unfold execLb; simp only [mapOnly_eq, map_eq_bind]; exact ends_complete (good_loadByte fun _ => w.setX _ _)
  case lh => unfold execLh; simp only [mapOnly_eq, map_eq_bind]; exact ends_complete (good_loadHalf fun _ => w.setX _ _)
  case lwl => exact ends_loadPart _ _ _ s
  case lwr => exact ends_loadPart _ _ _ s
  case swl => exact ends_storePart _ _ _ s
  case swr => exact ends_storePart _ _ _ s
  case cache => exact .refuse _
  case lwc2 => exact .refuse _
  case ldc2 => exact .refuse _
  case pref => exact ends_done w
  case swc2 => exact .refuse _
  case sdc2 => exact .refuse _
  case sllv => exact ends_done (w.setX _ _)
  case srlv => exact ends_done (w.setX _ _)
  case srav => exact ends_done (w.setX _ _)
  case jalr =>
    unfold execJalr; rw [mapOnly_eq]; split
    · exact .refuse _
    · exact ends_transferTo (w.setX _ _) _
  case movz => exact ends_done (writes_ite _ (w.setX _ _) w)
  case movn => exact ends_done (writes_ite _ (w.setX _ _) w)
  case syscall => exact ends_raise s _ (by simp [Raisable])
  case brk => exact ends_raise s _ (by simp [Raisable])
  case sync => exact ends_done w
  case mthi => exact ends_done (w.setHi _)
  case mtlo => exact ends_done (w.setLo _)
  case xor => exact ends_done (w.setX _ _)
  case tge => exact ends_trapIf _ _ s
  case tgeu => exact ends_trapIf _ _ s
  case tlt => exact ends_trapIf _ _ s
  case tltu => exact ends_trapIf _ _ s
  case teq => exact ends_trapIf _ _ s
  case tne => exact ends_trapIf _ _ s
  case sqrtS => exact ends_done (w.putSingle _ _)
  case sqrtD => exact ends_withDoubles _ (w.putDouble _ _)
  case absS => exact ends_done (w.putSingle _ _)
  case absD => exact ends_withDoubles _ (w.putDouble _ _)
  case movS => exact ends_done (w.setF _ _)
  case movD => exact ends_withDoubles _ (w.setD _ _)
  case negS => exact ends_done (w.putSingle _ _)
  case negD => exact ends_withDoubles _ (w.putDouble _ _)
  case roundWS => exact ends_done (w.putInt _ _)
  case roundWD => exact ends_withDoubles _ (w.putInt _ _)
  case truncWS => exact ends_done (w.putInt _ _)
  case truncWD => exact ends_withDoubles _ (w.putInt _ _)
  case ceilWS => exact ends_done (w.putInt _ _)
  case ceilWD => exact ends_withDoubles _ (w.putInt _ _)
  case floorWS => exact ends_done (w.putInt _ _)
  case floorWD => exact ends_withDoubles _ (w.putInt _ _)
  case cvtSS => exact .refuse _
  case cvtSD => exact ends_withDoubles _ (w.putSingle _ _)
  case cvtDS => exact ends_withDoubles _ (w.putDouble _ _)
  case cvtDD => exact .refuse _
  case cvtWS => exact ends_done (w.putInt _ _)
  case cvtWD => exact ends_withDoubles _ (w.putInt _ _)
  case movzS => exact ends_done (writes_ite _ (w.setF _ _) w)
  case movzD => exact ends_withDoubles _ (writes_ite _ (w.setD _ _) w)
  case movnS => exact ends_done (writes_ite _ (w.setF _ _) w)
  case movnD => exact ends_withDoubles _ (writes_ite _ (w.setD _ _) w)
  case cFS => exact ends_compareSingle _ _ _ s
  case cFD => exact ends_compareDouble _ _ _ s
  case cUnS => exact ends_compareSingle _ _ _ s
  case cUnD => exact ends_compareDouble _ _ _ s
  case cUeqS => exact ends_compareSingle _ _ _ s
  case cUeqD => exact ends_compareDouble _ _ _ s
  case cOltS => exact ends_compareSingle _ _ _ s
  case cOltD => exact ends_compareDouble _ _ _ s
  case cUltS => exact ends_compareSingle _ _ _ s
  case cUltD => exact ends_compareDouble _ _ _ s
  case cOleS => exact ends_compareSingle _ _ _ s
  case cOleD => exact ends_compareDouble _ _ _ s
  case cUleS => exact ends_compareSingle _ _ _ s
  case cUleD => exact ends_compareDouble _ _ _ s
  case cSfS => exact ends_compareSingle _ _ _ s
  case cSfD => exact ends_compareDouble _ _ _ s
  case cNgleS => exact ends_compareSingle _ _ _ s
  case cNgleD => exact ends_compareDouble _ _ _ s
  case cSeqS => exact ends_compareSingle _ _ _ s
  case cSeqD => exact ends_compareDouble _ _ _ s
  case cNglS => exact ends_compareSingle _ _ _ s
  case cNglD => exact ends_compareDouble _ _ _ s
  case cNgeS => exact ends_compareSingle _ _ _ s
  case cNgeD => exact ends_compareDouble _ _ _ s
  case cNgtS => exact ends_compareSingle _ _ _ s
  case cNgtD => exact ends_compareDouble _ _ _ s

end Sys2Proof.Machine
end

