-- ==== Sys2Proof/Laws/PerInstr.lean ====
section
/-! SUPPORT. Lemmas made per instruction. `EncodedOpcode`: the encoding of an instruction has the opcode that R101 to R104 give it. -/

namespace Sys2Proof.Laws.EncodedOpcode

set_option Elab.async false

/-- Bits 31:26 of an instruction's words, by the opcode column (R101), column (1) (R102), column (2) (R103) and the rows
outside them (R104). -/
def opcodeOf : Instr → BitVec 6
  | .add .. | .addu .. | .and .. | .jr .. | .nor .. | .or .. | .slt .. | .sltu .. | .sll .. | .srl .. | .sub .. |
    .subu .. | .div .. | .divu .. | .mfhi .. | .mflo .. | .mult .. | .multu .. | .sra .. | .sllv .. | .srlv .. |
    .srav .. | .jalr .. | .movz .. | .movn .. | .syscall .. | .brk .. | .sync | .mthi .. | .mtlo .. | .xor .. |
    .tge .. | .tgeu .. | .tlt .. | .tltu .. | .teq .. | .tne .. => 0x00
  | .j .. => 0x02
  | .jal .. => 0x03
  | .beq .. => 0x04
  | .bne .. => 0x05
  | .blez .. => 0x06
  | .bgtz .. => 0x07
  | .addi .. => 0x08
  | .addiu .. => 0x09
  | .slti .. => 0x0A
  | .sltiu .. => 0x0B
  | .andi .. => 0x0C
  | .ori .. => 0x0D
  | .xori .. => 0x0E
  | .lui .. => 0x0F
  | .mfc0 .. => 0x10
  | .bc1t .. | .bc1f .. | .addS .. | .addD .. | .subS .. | .subD .. | .mulS .. | .mulD .. | .divS .. | .divD .. |
    .cEqS .. | .cEqD .. | .cLtS .. | .cLtD .. | .cLeS .. | .cLeD .. | .sqrtS .. | .sqrtD .. | .absS .. | .absD .. |
    .movS .. | .movD .. | .negS .. | .negD .. | .roundWS .. | .roundWD .. | .truncWS .. | .truncWD .. | .ceilWS .. |
    .ceilWD .. | .floorWS .. | .floorWD .. | .cvtSS .. | .cvtSD .. | .cvtDS .. | .cvtDD .. | .cvtWS .. | .cvtWD .. |
    .movzS .. | .movzD .. | .movnS .. | .movnD .. | .cFS .. | .cFD .. | .cUnS .. | .cUnD .. | .cUeqS .. |
    .cUeqD .. | .cOltS .. | .cOltD .. | .cUltS .. | .cUltD .. | .cOleS .. | .cOleD .. | .cUleS .. | .cUleD .. |
    .cSfS .. | .cSfD .. | .cNgleS .. | .cNgleD .. | .cSeqS .. | .cSeqD .. | .cNglS .. | .cNglD .. | .cNgeS .. |
    .cNgeD .. | .cNgtS .. | .cNgtD .. => 0x11
  | .lb .. => 0x20
  | .lh .. => 0x21
  | .lwl .. => 0x22
  | .lw .. => 0x23
  | .lbu .. => 0x24
  | .lhu .. => 0x25
  | .lwr .. => 0x26
  | .sb .. => 0x28
  | .sh .. => 0x29
  | .swl .. => 0x2A
  | .sw .. => 0x2B
  | .swr .. => 0x2E
  | .cache .. => 0x2F
  | .ll .. => 0x30
  | .lwc1 .. => 0x31
  | .lwc2 .. => 0x32
  | .pref .. => 0x33
  | .ldc1 .. => 0x35
  | .ldc2 .. => 0x36
  | .sc .. => 0x38
  | .swc1 .. => 0x39
  | .swc2 .. => 0x3A
  | .sdc1 .. => 0x3D
  | .sdc2 .. => 0x3E

/-- The family's statement. -/
def Statement (i : Instr) : Prop := opField (encode i) = opcodeOf i

theorem add : ∀ rs rt rd, Statement (.add rs rt rd) := fun _ _ _ => opField_rWord _ _ _ _ _ _
theorem addi : ∀ rs rt imm, Statement (.addi rs rt imm) := fun _ _ _ => opField_iWord _ _ _ _
theorem addiu : ∀ rs rt imm, Statement (.addiu rs rt imm) := fun _ _ _ => opField_iWord _ _ _ _
theorem addu : ∀ rs rt rd, Statement (.addu rs rt rd) := fun _ _ _ => opField_rWord _ _ _ _ _ _
theorem and : ∀ rs rt rd, Statement (.and rs rt rd) := fun _ _ _ => opField_rWord _ _ _ _ _ _
theorem andi : ∀ rs rt imm, Statement (.andi rs rt imm) := fun _ _ _ => opField_iWord _ _ _ _
theorem beq : ∀ rs rt imm, Statement (.beq rs rt imm) := fun _ _ _ => opField_iWord _ _ _ _
theorem bne : ∀ rs rt imm, Statement (.bne rs rt imm) := fun _ _ _ => opField_iWord _ _ _ _
theorem j : ∀ addr, Statement (.j addr) := fun _ => opField_jWord _ _
theorem jal : ∀ addr, Statement (.jal addr) := fun _ => opField_jWord _ _
theorem jr : ∀ rs, Statement (.jr rs) := fun _ => opField_rWord _ _ _ _ _ _
theorem lbu : ∀ rs rt imm, Statement (.lbu rs rt imm) := fun _ _ _ => opField_iWord _ _ _ _
theorem lhu : ∀ rs rt imm, Statement (.lhu rs rt imm) := fun _ _ _ => opField_iWord _ _ _ _
theorem ll : ∀ rs rt imm, Statement (.ll rs rt imm) := fun _ _ _ => opField_iWord _ _ _ _
theorem lui : ∀ rt imm, Statement (.lui rt imm) := fun _ _ => opField_iWord _ _ _ _
theorem lw : ∀ rs rt imm, Statement (.lw rs rt imm) := fun _ _ _ => opField_iWord _ _ _ _
theorem nor : ∀ rs rt rd, Statement (.nor rs rt rd) := fun _ _ _ => opField_rWord _ _ _ _ _ _
theorem or : ∀ rs rt rd, Statement (.or rs rt rd) := fun _ _ _ => opField_rWord _ _ _ _ _ _
theorem ori : ∀ rs rt imm, Statement (.ori rs rt imm) := fun _ _ _ => opField_iWord _ _ _ _
theorem slt : ∀ rs rt rd, Statement (.slt rs rt rd) := fun _ _ _ => opField_rWord _ _ _ _ _ _
theorem slti : ∀ rs rt imm, Statement (.slti rs rt imm) := fun _ _ _ => opField_iWord _ _ _ _
theorem sltiu : ∀ rs rt imm, Statement (.sltiu rs rt imm) := fun _ _ _ => opField_iWord _ _ _ _
theorem sltu : ∀ rs rt rd, Statement (.sltu rs rt rd) := fun _ _ _ => opField_rWord _ _ _ _ _ _
theorem sll : ∀ rt rd shamt, Statement (.sll rt rd shamt) := fun _ _ _ => opField_rWord _ _ _ _ _ _
theorem srl : ∀ rt rd shamt, Statement (.srl rt rd shamt) := fun _ _ _ => opField_rWord _ _ _ _ _ _
theorem sb : ∀ rs rt imm, Statement (.sb rs rt imm) := fun _ _ _ => opField_iWord _ _ _ _
theorem sc : ∀ rs rt imm, Statement (.sc rs rt imm) := fun _ _ _ => opField_iWord _ _ _ _
theorem sh : ∀ rs rt imm, Statement (.sh rs rt imm) := fun _ _ _ => opField_iWord _ _ _ _
theorem sw : ∀ rs rt imm, Statement (.sw rs rt imm) := fun _ _ _ => opField_iWord _ _ _ _
theorem sub : ∀ rs rt rd, Statement (.sub rs rt rd) := fun _ _ _ => opField_rWord _ _ _ _ _ _
theorem subu : ∀ rs rt rd, Statement (.subu rs rt rd) := fun _ _ _ => opField_rWord _ _ _ _ _ _
theorem bc1t : ∀ imm, Statement (.bc1t imm) := fun _ => opField_iWord _ _ _ _
theorem bc1f : ∀ imm, Statement (.bc1f imm) := fun _ => opField_iWord _ _ _ _
theorem div : ∀ rs rt, Statement (.div rs rt) := fun _ _ => opField_rWord _ _ _ _ _ _
theorem divu : ∀ rs rt, Statement (.divu rs rt) := fun _ _ => opField_rWord _ _ _ _ _ _
theorem addS : ∀ ft fs fd, Statement (.addS ft fs fd) := fun _ _ _ => opField_rWord _ _ _ _ _ _
theorem addD : ∀ ft fs fd, Statement (.addD ft fs fd) := fun _ _ _ => opField_rWord _ _ _ _ _ _
theorem subS : ∀ ft fs fd, Statement (.subS ft fs fd) := fun _ _ _ => opField_rWord _ _ _ _ _ _
theorem subD : ∀ ft fs fd, Statement (.subD ft fs fd) := fun _ _ _ => opField_rWord _ _ _ _ _ _
theorem mulS : ∀ ft fs fd, Statement (.mulS ft fs fd) := fun _ _ _ => opField_rWord _ _ _ _ _ _
theorem mulD : ∀ ft fs fd, Statement (.mulD ft fs fd) := fun _ _ _ => opField_rWord _ _ _ _ _ _
theorem divS : ∀ ft fs fd, Statement (.divS ft fs fd) := fun _ _ _ => opField_rWord _ _ _ _ _ _
theorem divD : ∀ ft fs fd, Statement (.divD ft fs fd) := fun _ _ _ => opField_rWord _ _ _ _ _ _
theorem cEqS : ∀ ft fs, Statement (.cEqS ft fs) := fun _ _ => opField_rWord _ _ _ _ _ _
theorem cEqD : ∀ ft fs, Statement (.cEqD ft fs) := fun _ _ => opField_rWord _ _ _ _ _ _
theorem cLtS : ∀ ft fs, Statement (.cLtS ft fs) := fun _ _ => opField_rWord _ _ _ _ _ _
theorem cLtD : ∀ ft fs, Statement (.cLtD ft fs) := fun _ _ => opField_rWord _ _ _ _ _ _
theorem cLeS : ∀ ft fs, Statement (.cLeS ft fs) := fun _ _ => opField_rWord _ _ _ _ _ _
theorem cLeD : ∀ ft fs, Statement (.cLeD ft fs) := fun _ _ => opField_rWord _ _ _ _ _ _
theorem lwc1 : ∀ rs rt imm, Statement (.lwc1 rs rt imm) := fun _ _ _ => opField_iWord _ _ _ _
theorem ldc1 : ∀ rs rt imm, Statement (.ldc1 rs rt imm) := fun _ _ _ => opField_iWord _ _ _ _
theorem mfhi : ∀ rd, Statement (.mfhi rd) := fun _ => opField_rWord _ _ _ _ _ _
theorem mflo : ∀ rd, Statement (.mflo rd) := fun _ => opField_rWord _ _ _ _ _ _
theorem mfc0 : ∀ rt rd, Statement (.mfc0 rt rd) := fun _ _ => opField_rWord _ _ _ _ _ _
theorem mult : ∀ rs rt, Statement (.mult rs rt) := fun _ _ => opField_rWord _ _ _ _ _ _
theorem multu : ∀ rs rt, Statement (.multu rs rt) := fun _ _ => opField_rWord _ _ _ _ _ _
theorem sra : ∀ rt rd shamt, Statement (.sra rt rd shamt) := fun _ _ _ => opField_rWord _ _ _ _ _ _
theorem swc1 : ∀ rs rt imm, Statement (.swc1 rs rt imm) := fun _ _ _ => opField_iWord _ _ _ _
theorem sdc1 : ∀ rs rt imm, Statement (.sdc1 rs rt imm) := fun _ _ _ => opField_iWord _ _ _ _
theorem blez : ∀ rs imm, Statement (.blez rs imm) := fun _ _ => opField_iWord _ _ _ _
theorem bgtz : ∀ rs imm, Statement (.bgtz rs imm) := fun _ _ => opField_iWord _ _ _ _
theorem xori : ∀ rs rt imm, Statement (.xori rs rt imm) := fun _ _ _ => opField_iWord _ _ _ _
theorem lb : ∀ rs rt imm, Statement (.lb rs rt imm) := fun _ _ _ => opField_iWord _ _ _ _
theorem lh : ∀ rs rt imm, Statement (.lh rs rt imm) := fun _ _ _ => opField_iWord _ _ _ _
theorem lwl : ∀ rs rt imm, Statement (.lwl rs rt imm) := fun _ _ _ => opField_iWord _ _ _ _
theorem lwr : ∀ rs rt imm, Statement (.lwr rs rt imm) := fun _ _ _ => opField_iWord _ _ _ _
theorem swl : ∀ rs rt imm, Statement (.swl rs rt imm) := fun _ _ _ => opField_iWord _ _ _ _
theorem swr : ∀ rs rt imm, Statement (.swr rs rt imm) := fun _ _ _ => opField_iWord _ _ _ _
theorem cache : ∀ rs rt imm, Statement (.cache rs rt imm) := fun _ _ _ => opField_iWord _ _ _ _
theorem lwc2 : ∀ rs rt imm, Statement (.lwc2 rs rt imm) := fun _ _ _ => opField_iWord _ _ _ _
theorem ldc2 : ∀ rs rt imm, Statement (.ldc2 rs rt imm) := fun _ _ _ => opField_iWord _ _ _ _
theorem pref : ∀ rs rt imm, Statement (.pref rs rt imm) := fun _ _ _ => opField_iWord _ _ _ _
theorem swc2 : ∀ rs rt imm, Statement (.swc2 rs rt imm) := fun _ _ _ => opField_iWord _ _ _ _
theorem sdc2 : ∀ rs rt imm, Statement (.sdc2 rs rt imm) := fun _ _ _ => opField_iWord _ _ _ _
theorem sllv : ∀ rs rt rd, Statement (.sllv rs rt rd) := fun _ _ _ => opField_rWord _ _ _ _ _ _
theorem srlv : ∀ rs rt rd, Statement (.srlv rs rt rd) := fun _ _ _ => opField_rWord _ _ _ _ _ _
theorem srav : ∀ rs rt rd, Statement (.srav rs rt rd) := fun _ _ _ => opField_rWord _ _ _ _ _ _
theorem jalr : ∀ rs rd, Statement (.jalr rs rd) := fun _ _ => opField_rWord _ _ _ _ _ _
theorem movz : ∀ rs rt rd, Statement (.movz rs rt rd) := fun _ _ _ => opField_rWord _ _ _ _ _ _
theorem movn : ∀ rs rt rd, Statement (.movn rs rt rd) := fun _ _ _ => opField_rWord _ _ _ _ _ _
theorem syscall : ∀ code, Statement (.syscall code) := fun _ => opField_codeWord _ _
theorem brk : ∀ code, Statement (.brk code) := fun _ => opField_codeWord _ _
theorem sync : Statement .sync := opField_rWord _ _ _ _ _ _
theorem mthi : ∀ rs, Statement (.mthi rs) := fun _ => opField_rWord _ _ _ _ _ _
theorem mtlo : ∀ rs, Statement (.mtlo rs) := fun _ => opField_rWord _ _ _ _ _ _
theorem xor : ∀ rs rt rd, Statement (.xor rs rt rd) := fun _ _ _ => opField_rWord _ _ _ _ _ _
theorem tge : ∀ rs rt code, Statement (.tge rs rt code) := fun _ _ _ => opField_trapWord _ _ _ _
theorem tgeu : ∀ rs rt code, Statement (.tgeu rs rt code) := fun _ _ _ => opField_trapWord _ _ _ _
theorem tlt : ∀ rs rt code, Statement (.tlt rs rt code) := fun _ _ _ => opField_trapWord _ _ _ _
theorem tltu : ∀ rs rt code, Statement (.tltu rs rt code) := fun _ _ _ => opField_trapWord _ _ _ _
theorem teq : ∀ rs rt code, Statement (.teq rs rt code) := fun _ _ _ => opField_trapWord _ _ _ _
theorem tne : ∀ rs rt code, Statement (.tne rs rt code) := fun _ _ _ => opField_trapWord _ _ _ _
theorem sqrtS : ∀ fs fd, Statement (.sqrtS fs fd) := fun _ _ => opField_rWord _ _ _ _ _ _
theorem sqrtD : ∀ fs fd, Statement (.sqrtD fs fd) := fun _ _ => opField_rWord _ _ _ _ _ _
theorem absS : ∀ fs fd, Statement (.absS fs fd) := fun _ _ => opField_rWord _ _ _ _ _ _
theorem absD : ∀ fs fd, Statement (.absD fs fd) := fun _ _ => opField_rWord _ _ _ _ _ _
theorem movS : ∀ fs fd, Statement (.movS fs fd) := fun _ _ => opField_rWord _ _ _ _ _ _
theorem movD : ∀ fs fd, Statement (.movD fs fd) := fun _ _ => opField_rWord _ _ _ _ _ _
theorem negS : ∀ fs fd, Statement (.negS fs fd) := fun _ _ => opField_rWord _ _ _ _ _ _
theorem negD : ∀ fs fd, Statement (.negD fs fd) := fun _ _ => opField_rWord _ _ _ _ _ _
theorem roundWS : ∀ fs fd, Statement (.roundWS fs fd) := fun _ _ => opField_rWord _ _ _ _ _ _
theorem roundWD : ∀ fs fd, Statement (.roundWD fs fd) := fun _ _ => opField_rWord _ _ _ _ _ _
theorem truncWS : ∀ fs fd, Statement (.truncWS fs fd) := fun _ _ => opField_rWord _ _ _ _ _ _
theorem truncWD : ∀ fs fd, Statement (.truncWD fs fd) := fun _ _ => opField_rWord _ _ _ _ _ _
theorem ceilWS : ∀ fs fd, Statement (.ceilWS fs fd) := fun _ _ => opField_rWord _ _ _ _ _ _
theorem ceilWD : ∀ fs fd, Statement (.ceilWD fs fd) := fun _ _ => opField_rWord _ _ _ _ _ _
theorem floorWS : ∀ fs fd, Statement (.floorWS fs fd) := fun _ _ => opField_rWord _ _ _ _ _ _
theorem floorWD : ∀ fs fd, Statement (.floorWD fs fd) := fun _ _ => opField_rWord _ _ _ _ _ _
theorem cvtSS : ∀ fs fd, Statement (.cvtSS fs fd) := fun _ _ => opField_rWord _ _ _ _ _ _
theorem cvtSD : ∀ fs fd, Statement (.cvtSD fs fd) := fun _ _ => opField_rWord _ _ _ _ _ _
theorem cvtDS : ∀ fs fd, Statement (.cvtDS fs fd) := fun _ _ => opField_rWord _ _ _ _ _ _
theorem cvtDD : ∀ fs fd, Statement (.cvtDD fs fd) := fun _ _ => opField_rWord _ _ _ _ _ _
theorem cvtWS : ∀ fs fd, Statement (.cvtWS fs fd) := fun _ _ => opField_rWord _ _ _ _ _ _
theorem cvtWD : ∀ fs fd, Statement (.cvtWD fs fd) := fun _ _ => opField_rWord _ _ _ _ _ _
theorem movzS : ∀ rt fs fd, Statement (.movzS rt fs fd) := fun _ _ _ => opField_rWord _ _ _ _ _ _
theorem movzD : ∀ rt fs fd, Statement (.movzD rt fs fd) := fun _ _ _ => opField_rWord _ _ _ _ _ _
theorem movnS : ∀ rt fs fd, Statement (.movnS rt fs fd) := fun _ _ _ => opField_rWord _ _ _ _ _ _
theorem movnD : ∀ rt fs fd, Statement (.movnD rt fs fd) := fun _ _ _ => opField_rWord _ _ _ _ _ _
theorem cFS : ∀ ft fs, Statement (.cFS ft fs) := fun _ _ => opField_rWord _ _ _ _ _ _
theorem cFD : ∀ ft fs, Statement (.cFD ft fs) := fun _ _ => opField_rWord _ _ _ _ _ _
theorem cUnS : ∀ ft fs, Statement (.cUnS ft fs) := fun _ _ => opField_rWord _ _ _ _ _ _
theorem cUnD : ∀ ft fs, Statement (.cUnD ft fs) := fun _ _ => opField_rWord _ _ _ _ _ _
theorem cUeqS : ∀ ft fs, Statement (.cUeqS ft fs) := fun _ _ => opField_rWord _ _ _ _ _ _
theorem cUeqD : ∀ ft fs, Statement (.cUeqD ft fs) := fun _ _ => opField_rWord _ _ _ _ _ _
theorem cOltS : ∀ ft fs, Statement (.cOltS ft fs) := fun _ _ => opField_rWord _ _ _ _ _ _
theorem cOltD : ∀ ft fs, Statement (.cOltD ft fs) := fun _ _ => opField_rWord _ _ _ _ _ _
theorem cUltS : ∀ ft fs, Statement (.cUltS ft fs) := fun _ _ => opField_rWord _ _ _ _ _ _
theorem cUltD : ∀ ft fs, Statement (.cUltD ft fs) := fun _ _ => opField_rWord _ _ _ _ _ _
theorem cOleS : ∀ ft fs, Statement (.cOleS ft fs) := fun _ _ => opField_rWord _ _ _ _ _ _
theorem cOleD : ∀ ft fs, Statement (.cOleD ft fs) := fun _ _ => opField_rWord _ _ _ _ _ _
theorem cUleS : ∀ ft fs, Statement (.cUleS ft fs) := fun _ _ => opField_rWord _ _ _ _ _ _
theorem cUleD : ∀ ft fs, Statement (.cUleD ft fs) := fun _ _ => opField_rWord _ _ _ _ _ _
theorem cSfS : ∀ ft fs, Statement (.cSfS ft fs) := fun _ _ => opField_rWord _ _ _ _ _ _
theorem cSfD : ∀ ft fs, Statement (.cSfD ft fs) := fun _ _ => opField_rWord _ _ _ _ _ _
theorem cNgleS : ∀ ft fs, Statement (.cNgleS ft fs) := fun _ _ => opField_rWord _ _ _ _ _ _
theorem cNgleD : ∀ ft fs, Statement (.cNgleD ft fs) := fun _ _ => opField_rWord _ _ _ _ _ _
theorem cSeqS : ∀ ft fs, Statement (.cSeqS ft fs) := fun _ _ => opField_rWord _ _ _ _ _ _
theorem cSeqD : ∀ ft fs, Statement (.cSeqD ft fs) := fun _ _ => opField_rWord _ _ _ _ _ _
theorem cNglS : ∀ ft fs, Statement (.cNglS ft fs) := fun _ _ => opField_rWord _ _ _ _ _ _
theorem cNglD : ∀ ft fs, Statement (.cNglD ft fs) := fun _ _ => opField_rWord _ _ _ _ _ _
theorem cNgeS : ∀ ft fs, Statement (.cNgeS ft fs) := fun _ _ => opField_rWord _ _ _ _ _ _
theorem cNgeD : ∀ ft fs, Statement (.cNgeD ft fs) := fun _ _ => opField_rWord _ _ _ _ _ _
theorem cNgtS : ∀ ft fs, Statement (.cNgtS ft fs) := fun _ _ => opField_rWord _ _ _ _ _ _
theorem cNgtD : ∀ ft fs, Statement (.cNgtD ft fs) := fun _ _ => opField_rWord _ _ _ _ _ _

end Sys2Proof.Laws.EncodedOpcode
end

