-- ==== Sys2Proof/Tests/Slice0.lean ====
section
/-! SUPPORT. The model's own tests: the checks of WellFormed, the words of the spec decoded, single steps with the spec's own
values (spec/95_test_vectors.md sections 2.1 to 2.8 and the examples of the rules), and for every obligation with hypotheses
a state and operands that meet them. -/

namespace Sys2Proof.Tests

set_option Elab.async false

open Sys2Proof Sys2Proof.Machine

/-! ## Helpers -/

/-- Every word of the list decodes to the instruction beside it, and that encodes to the word. -/
def reads (l : List (Word × Instr)) : Bool :=
  l.all fun p => decide (decode p.1 = .ok p.2) && decide (encode p.2 = p.1)

/-- The launch state with general registers written. -/
def regs (l : List (RegNum × Word)) : State := l.foldl (fun s p => s.setX p.1 p.2) State.reset

/-- The launch state with `$s1`, `$s2` written, and 0x55 in `$t0`. -/
def two (a b : Word) : State := regs [(17, a), (18, b), (8, 0x55)]

/-- The launch state with floating-point registers written. -/
def fregs (l : List (RegNum × Word)) : State := l.foldl (fun s p => s.setF p.1 p.2) State.reset

/-- The words 0x11223344, 0x55667788 at 0x10010000, which is in `$s1` and `$a0`; 0xAABBCCDD in `$t0`. -/
def data : State :=
  (regs [(17, 0x10010000), (4, 0x10010000), (8, 0xAABBCCDD)]).setMem
    ((State.reset.mem.writeWord 0x10010000 0x11223344).writeWord 0x10010004 0x55667788)

/-- The launch state with an address in `$s1`. -/
def at17 (a : Word) : State := regs [(17, a)]

/-- The launch state in kernel mode. -/
def kernel : State := { State.reset with status := 0 }

/-- The launch state in a delay slot, the target 0x00400040. -/
def inSlot : State := { State.reset with inDelay := true, npc := 0x00400040 }

/-- A result that is a next state, with `p` true of it. -/
def onward (r : Result) (p : State → Bool) : Bool :=
  match r with
  | .next t => p t
  | .fault _ => false
  | .refused _ => false

/-- The instruction answers a next state that is still running, with `p` true of it. -/
def after (i : Instr) (s : State) (p : State → Bool) : Bool := onward (exec i s) fun t => decide (t.outcome = .running) && p t

/-- The step answers a next state with `p` true of it. -/
def steps (s : State) (p : State → Bool) : Bool := onward (step s) p

/-- The instruction takes an exception and keeps every register. -/
def faults (i : Instr) (s : State) (e : Exc) (info : Word) : Bool :=
  onward (exec i s) fun t =>
    decide (t.outcome = .faulted e.code s.pc s.inDelay info ∧ t.gpr = s.gpr ∧ t.fpr = s.fpr ∧ t.mem = s.mem ∧
      t.pc = s.pc ∧ t.npc = s.npc) && t.el && decide (t.excCode = e.code) && (t.bd == s.inDelay)

/-- The instruction is refused. -/
def refuses (i : Instr) (s : State) (r : Refusal) : Bool :=
  match exec i s with
  | .next _ => false
  | .fault _ => false
  | .refused q => decide (q = r)

/-- What `onward` found, as a state. -/
theorem onward_next {r : Result} {p : State → Bool} (h : onward r p = true) : ∃ t, r = .next t ∧ p t = true := by
  cases r with
  | next t => exact ⟨t, rfl, h⟩
  | fault f => simp [onward] at h
  | refused q => simp [onward] at h

/-- What `refuses` found. -/
theorem refused_of {i : Instr} {s : State} {r : Refusal} (h : refuses i s r = true) : exec i s = .refused r := by
  unfold refuses at h
  cases e : exec i s with
  | next t => simp [e] at h
  | fault f => simp [e] at h
  | refused q => simp [e] at h; rw [h]

/-- Every byte of an access is allowed. -/
theorem allowed {s : State} {k : Access} {a : Word} {n : Nat} (h : mappedAll s.memMap k a n = true) : Allowed s k a n :=
  (mappedAll_iff s k a n).1 h

/-- Some byte of an access is not. -/
theorem notAllowed {s : State} {k : Access} {a : Word} {n : Nat} (h : mappedAll s.memMap k a n = false) :
    ¬ Allowed s k a n := fun ha => by simp [(mappedAll_iff s k a n).2 ha] at h

/-! ## WellFormed: each check refuses an ill-formed term -/

/-- An instruction without an effect, an odd double, `jalr` of one register twice, an unknown control register. -/
theorem test_wellFormed_refuses :
    (Instr.cache 17 8 4).hasEffect = false ∧ (Instr.addD 6 4 3).doublesEven = false ∧
    (Instr.ldc1 17 3 8).doublesEven = false ∧ (Instr.jalr 25 25).linkApart = false ∧
    (Instr.mfc0 8 14).controlKnown = false ∧
    ([Instr.cache 17 8 4, .cvtSS 4 2, .addD 6 4 3, .ldc1 17 3 8, .jalr 25 25, .mfc0 8 14].all fun i => !i.wellFormed) = true := by
  decide

/-- Their well-formed neighbours pass. -/
theorem test_wellFormed_accepts :
    ([Instr.cvtSD 4 2, .addD 6 4 2, .addS 7 5 3, .ldc1 17 2 8, .jalr 25 31, .mfc0 8 13, .j 0].all fun i => i.wellFormed) = true := by
  decide

/-! ## Decoding: a word for every constructor. The hexadecimal words are the spec's examples; the others are written out
from the encodings of R90 to R104, R242 to R247, R270 to R297. -/

theorem test_decode_coreAlu : reads [
    (0x02324020#32, .add 17 18 8), (0x2228FFFF#32, .addi 17 8 0xFFFF), (0x27BDFFF8#32, .addiu 29 29 0xFFF8),
    (0x02324021#32, .addu 17 18 8), (0x02324024#32, .and 17 18 8), (0x3228FF00#32, .andi 17 8 0xFF00),
    (0x3C081234#32, .lui 8 0x1234), (0x02324027#32, .nor 17 18 8), (0x02324025#32, .or 17 18 8),
    (0x35085678#32, .ori 8 8 0x5678), (0x0232402A#32, .slt 17 18 8), (0x2A28FFFB#32, .slti 17 8 0xFFFB),
    (0x2E28FFFF#32, .sltiu 17 8 0xFFFF), (0x0232402B#32, .sltu 17 18 8), (0x00114100#32, .sll 17 8 4),
    (0x00114102#32, .srl 17 8 4), (0x02324022#32, .sub 17 18 8), (0x02324023#32, .subu 17 18 8) ] = true := by
  decide +kernel

theorem test_decode_control : reads [
    (0x12320003#32, .beq 17 18 3), (0x1500FFFD#32, .bne 8 0 0xFFFD), (0x08100008#32, .j 0x0100008),
    (0x0C100010#32, .jal 0x0100010), (0x03E00008#32, .jr 31), (0x45010005#32, .bc1t 5), (0x4500FFFE#32, .bc1f 0xFFFE) ] = true := by
  decide +kernel

theorem test_decode_memory : reads [
    (0x92280001#32, .lbu 17 8 1), (0x96280002#32, .lhu 17 8 2), (0xC0880000#32, .ll 4 8 0),
    (0x8FA8FFFC#32, .lw 29 8 0xFFFC), (0xA2280003#32, .sb 17 8 3), (0xE0880000#32, .sc 4 8 0),
    (0xA6280002#32, .sh 17 8 2), (0xAFA80008#32, .sw 29 8 8), (0xC7A20004#32, .lwc1 29 2 4),
    (0xD7A20008#32, .ldc1 29 2 8), (0xE7A20004#32, .swc1 29 2 4), (0xF7A20008#32, .sdc1 29 2 8) ] = true := by
  decide +kernel

theorem test_decode_mulDiv : reads [
    (0x0232001A#32, .div 17 18), (0x0232001B#32, .divu 17 18), (0x00004010#32, .mfhi 8), (0x00004012#32, .mflo 8),
    (0x401A6000#32, .mfc0 26 12), (0x02320018#32, .mult 17 18), (0x02320019#32, .multu 17 18),
    (0x00114103#32, .sra 17 8 4) ] = true := by
  decide +kernel

theorem test_decode_fpArith : reads [
    (0x46062080#32, .addS 6 4 2), (0x46262080#32, .addD 6 4 2), (0x46062081#32, .subS 6 4 2),
    (0x46262081#32, .subD 6 4 2), (0x46062082#32, .mulS 6 4 2), (0x46262082#32, .mulD 6 4 2),
    (0x46062083#32, .divS 6 4 2), (0x46262083#32, .divD 6 4 2), (0x46062032#32, .cEqS 6 4),
    (0x46262032#32, .cEqD 6 4), (0x4606203C#32, .cLtS 6 4), (0x4626203C#32, .cLtD 6 4), (0x4606203E#32, .cLeS 6 4),
    (0x4626203E#32, .cLeD 6 4) ] = true := by
  decide +kernel

theorem test_decode_mapImmediate : reads [
    (0x1A200002#32, .blez 17 2), (0x1E200002#32, .bgtz 17 2), (0x3A28FFFF#32, .xori 17 8 0xFFFF),
    (0x82280000#32, .lb 17 8 0), (0x86280000#32, .lh 17 8 0), (0x8A280001#32, .lwl 17 8 1),
    (0x9A280004#32, .lwr 17 8 4), (0xAA280001#32, .swl 17 8 1), (0xBA280004#32, .swr 17 8 4),
    (0b101111#6 ++ 17#5 ++ 8#5 ++ 4#16, .cache 17 8 4), (0b110010#6 ++ 17#5 ++ 8#5 ++ 4#16, .lwc2 17 8 4),
    (0b110110#6 ++ 17#5 ++ 8#5 ++ 4#16, .ldc2 17 8 4), (0b110011#6 ++ 17#5 ++ 8#5 ++ 4#16, .pref 17 8 4),
    (0b111010#6 ++ 17#5 ++ 8#5 ++ 4#16, .swc2 17 8 4), (0b111110#6 ++ 17#5 ++ 8#5 ++ 4#16, .sdc2 17 8 4) ] = true := by
  decide +kernel

theorem test_decode_mapSpecial : reads [
    (0x02514004#32, .sllv 18 17 8), (0x02514006#32, .srlv 18 17 8), (0x02514007#32, .srav 18 17 8),
    (0x0320F809#32, .jalr 25 31), (0x0232400A#32, .movz 17 18 8), (0x0232400B#32, .movn 17 18 8),
    (0x0000000C#32, .syscall 0), (0x0000000D#32, .brk 0), (0x0000000F#32, .sync), (0x02200011#32, .mthi 17),
    (0x02200013#32, .mtlo 17), (0x02324026#32, .xor 17 18 8), (0x02320030#32, .tge 17 18 0),
    (0x02320031#32, .tgeu 17 18 0), (0x02320032#32, .tlt 17 18 0), (0x02320033#32, .tltu 17 18 0),
    (0x02320034#32, .teq 17 18 0), (0x02320036#32, .tne 17 18 0) ] = true := by
  decide +kernel

theorem test_decode_mapFp : reads [
    (0x46002084#32, .sqrtS 4 2), (0x46202084#32, .sqrtD 4 2), (0x46002085#32, .absS 4 2), (0x46202085#32, .absD 4 2),
    (0x46002086#32, .movS 4 2), (0x46202086#32, .movD 4 2), (0x46002087#32, .negS 4 2), (0x46202087#32, .negD 4 2),
    (0x4600208C#32, .roundWS 4 2), (0x4620208C#32, .roundWD 4 2), (0x4600208D#32, .truncWS 4 2),
    (0x4620208D#32, .truncWD 4 2), (0x4600208E#32, .ceilWS 4 2), (0x4620208E#32, .ceilWD 4 2),
    (0x4600208F#32, .floorWS 4 2), (0x4620208F#32, .floorWD 4 2), (0x46082092#32, .movzS 8 4 2),
    (0x46282092#32, .movzD 8 4 2), (0x46082093#32, .movnS 8 4 2),
    (0b010001#6 ++ 17#5 ++ 8#5 ++ 4#5 ++ 2#5 ++ 0x13#6, .movnD 8 4 2),
    (0b010001#6 ++ 16#5 ++ 0#5 ++ 4#5 ++ 2#5 ++ 0x20#6, .cvtSS 4 2), (0x462020A0#32, .cvtSD 4 2),
    (0x460020A1#32, .cvtDS 4 2), (0b010001#6 ++ 17#5 ++ 0#5 ++ 4#5 ++ 2#5 ++ 0x21#6, .cvtDD 4 2),
    (0x460020A4#32, .cvtWS 4 2), (0x462020A4#32, .cvtWD 4 2) ] = true := by
  decide +kernel

theorem test_decode_mapCompare : reads [
    (0x46062030#32, .cFS 6 4), (0x46262030#32, .cFD 6 4), (0x46062031#32, .cUnS 6 4),
    (0b010001#6 ++ 17#5 ++ 6#5 ++ 4#5 ++ 0#5 ++ 0x31#6, .cUnD 6 4), (0x46062033#32, .cUeqS 6 4),
    (0b010001#6 ++ 17#5 ++ 6#5 ++ 4#5 ++ 0#5 ++ 0x33#6, .cUeqD 6 4), (0x46062034#32, .cOltS 6 4),
    (0b010001#6 ++ 17#5 ++ 6#5 ++ 4#5 ++ 0#5 ++ 0x34#6, .cOltD 6 4), (0x46062035#32, .cUltS 6 4),
    (0b010001#6 ++ 17#5 ++ 6#5 ++ 4#5 ++ 0#5 ++ 0x35#6, .cUltD 6 4), (0x46062036#32, .cOleS 6 4),
    (0b010001#6 ++ 17#5 ++ 6#5 ++ 4#5 ++ 0#5 ++ 0x36#6, .cOleD 6 4), (0x46062037#32, .cUleS 6 4),
    (0b010001#6 ++ 17#5 ++ 6#5 ++ 4#5 ++ 0#5 ++ 0x37#6, .cUleD 6 4), (0x46062038#32, .cSfS 6 4),
    (0b010001#6 ++ 17#5 ++ 6#5 ++ 4#5 ++ 0#5 ++ 0x38#6, .cSfD 6 4), (0x46062039#32, .cNgleS 6 4),
    (0b010001#6 ++ 17#5 ++ 6#5 ++ 4#5 ++ 0#5 ++ 0x39#6, .cNgleD 6 4), (0x4606203A#32, .cSeqS 6 4),
    (0b010001#6 ++ 17#5 ++ 6#5 ++ 4#5 ++ 0#5 ++ 0x3A#6, .cSeqD 6 4), (0x4606203B#32, .cNglS 6 4),
    (0b010001#6 ++ 17#5 ++ 6#5 ++ 4#5 ++ 0#5 ++ 0x3B#6, .cNglD 6 4), (0x4606203D#32, .cNgeS 6 4),
    (0b010001#6 ++ 17#5 ++ 6#5 ++ 4#5 ++ 0#5 ++ 0x3D#6, .cNgeD 6 4), (0x4606203F#32, .cNgtS 6 4),
    (0b010001#6 ++ 17#5 ++ 6#5 ++ 4#5 ++ 0#5 ++ 0x3F#6, .cNgtD 6 4) ] = true := by
  decide +kernel

/-- One word of each family, bit by bit from its encoding (R120, R142, R154, R172, R189, R204, R231, R248, R271, R284). -/
theorem test_decode_bits : reads [
    (0b000000#6 ++ 0b10001#5 ++ 0b10010#5 ++ 0b01000#5 ++ 0b00000#5 ++ 0b100000#6, .add 17 18 8),
    (0b000100#6 ++ 0b10001#5 ++ 0b10010#5 ++ 0b0000000000000011#16, .beq 17 18 3),
    (0b100011#6 ++ 0b11101#5 ++ 0b01000#5 ++ 0b1111111111111100#16, .lw 29 8 0xFFFC),
    (0b000000#6 ++ 0b10001#5 ++ 0b10010#5 ++ 0b00000#5 ++ 0b00000#5 ++ 0b011000#6, .mult 17 18),
    (0b010001#6 ++ 0b10000#5 ++ 0b00110#5 ++ 0b00100#5 ++ 0b00010#5 ++ 0b000000#6, .addS 6 4 2),
    (0b010001#6 ++ 0b01000#5 ++ 0b00001#5 ++ 0b0000000000000101#16, .bc1t 5),
    (0b000110#6 ++ 0b10001#5 ++ 0b00000#5 ++ 0b0000000000000010#16, .blez 17 2),
    (0b000000#6 ++ 0b10010#5 ++ 0b10001#5 ++ 0b01000#5 ++ 0b00000#5 ++ 0b000100#6, .sllv 18 17 8),
    (0b010001#6 ++ 0b10001#5 ++ 0b00000#5 ++ 0b00100#5 ++ 0b00010#5 ++ 0b000100#6, .sqrtD 4 2),
    (0b010001#6 ++ 0b10000#5 ++ 0b00110#5 ++ 0b00100#5 ++ 0b00000#5 ++ 0b110000#6, .cFS 6 4) ] = true := by
  decide +kernel

/-- Reserved words are rejected by name (R105, R106). -/
theorem test_decode_reserved :
    decode 0xFFFFFFFF = .error .blankOpcode ∧ decode 0x0000003F = .error .blankFunct ∧
    decode 0x46000008 = .error .blankFpFunct ∧ decode 0x44000000 = .error .reservedFmt ∧
    decode 0x45020000 = .error .reservedFt ∧ decode 0x42000018 = .error .reservedCop0 ∧
    decode 0x02324060 = .error .unusedField := by
  decide +kernel

/-- The bytes of a word, most significant first, and too few bytes. -/
theorem test_decode_bytes :
    decodeBytes [0x02, 0x32, 0x40, 0x20] = .ok (.add 17 18 8) ∧ decodeBytes [0x02, 0x32, 0x40] = .error .notOneWord := by
  decide +kernel

/-! ## Integer arithmetic and logic (spec/95 section 2.1) -/

theorem test_add :
    (after (.add 17 18 8) (two 5 0xFFFFFFFD) fun t => t.x 8 == 2) = true ∧
    faults (.add 17 18 8) (two 0x7FFFFFFF 1) .ov 0x02324020 = true ∧
    faults (.add 17 18 0) (two 0x7FFFFFFF 1) .ov 0x02320020 = true := by decide +kernel

theorem test_addi :
    (after (.addi 17 8 0xFFFF) (two 0 0) fun t => t.x 8 == 0xFFFFFFFF) = true ∧
    faults (.addi 17 8 0xFFFF) (two 0x80000000 0) .ov 0x2228FFFF = true := by decide +kernel

theorem test_sub :
    (after (.sub 17 18 8) (two 3 5) fun t => t.x 8 == 0xFFFFFFFE) = true ∧
    faults (.sub 17 18 8) (two 0 0x80000000) .ov 0x02324022 = true := by decide +kernel

theorem test_coreAlu :
    ((after (.addiu 17 8 0xFFFF) (two 0x80000000 0) fun t => t.x 8 == 0x7FFFFFFF) &&
    (after (.addu 17 18 8) (two 0xFFFFFFFF 1) fun t => t.x 8 == 0) &&
    (after (.subu 17 18 8) (two 0 1) fun t => t.x 8 == 0xFFFFFFFF) &&
    (after (.and 17 18 8) (two 0xFF00FF00 0x0FF00FF0) fun t => t.x 8 == 0x0F000F00) &&
    (after (.andi 17 8 0xFF00) (two 0xFFFFFFFF 0) fun t => t.x 8 == 0x0000FF00) &&
    (after (.or 17 18 8) (two 0xFF00FF00 0x0FF00FF0) fun t => t.x 8 == 0xFFF0FFF0) &&
    (after (.ori 17 8 0x8000) (two 0 0) fun t => t.x 8 == 0x00008000) &&
    (after (.nor 17 18 8) (two 0xFF00FF00 0x0FF00FF0) fun t => t.x 8 == 0x000F000F) &&
    (after (.lui 8 0x8000) (two 0 0) fun t => t.x 8 == 0x80000000) &&
    (after (.xori 17 8 0xFFFF) (two 0x12345678 0) fun t => t.x 8 == 0x1234A987) &&
    (after (.xor 17 18 8) (two 0xFF00FF00 0x0FF00FF0) fun t => t.x 8 == 0xF0F0F0F0)) = true := by decide +kernel

theorem test_compares :
    ((after (.slt 17 18 8) (two 0x80000000 0x7FFFFFFF) fun t => t.x 8 == 1) &&
    (after (.sltu 17 18 8) (two 0xFFFFFFFF 1) fun t => t.x 8 == 0) &&
    (after (.slti 17 8 0xFFFB) (two 0xFFFFFFFA 0) fun t => t.x 8 == 1) &&
    (after (.slti 17 8 0xFFFB) (two 0xFFFFFFFB 0) fun t => t.x 8 == 0) &&
    (after (.sltiu 17 8 0xFFFF) (two 0xFFFFFFFE 0) fun t => t.x 8 == 1) &&
    (after (.sltiu 17 8 0xFFFF) (two 0xFFFFFFFF 0) fun t => t.x 8 == 0)) = true := by decide +kernel

theorem test_shifts :
    ((after (.sll 17 8 4) (two 0xF000000F 0) fun t => t.x 8 == 0x000000F0) &&
    (after (.srl 17 8 4) (two 0xF000000F 0) fun t => t.x 8 == 0x0F000000) &&
    (after (.sra 17 8 4) (two 0xF000000F 0) fun t => t.x 8 == 0xFF000000) &&
    (after (.sra 17 8 31) (two 0x80000000 0) fun t => t.x 8 == 0xFFFFFFFF) &&
    (after (.sllv 18 17 8) (two 1 0x24) fun t => t.x 8 == 0x10) &&
    (after (.srlv 18 17 8) (two 0x80000000 4) fun t => t.x 8 == 0x08000000) &&
    (after (.srav 18 17 8) (two 0x80000000 4) fun t => t.x 8 == 0xF8000000)) = true := by decide +kernel

theorem test_conditionalMoves :
    ((after (.movz 17 18 8) (two 7 0) fun t => t.x 8 == 7) && (after (.movz 17 18 8) (two 7 1) fun t => t.x 8 == 0x55) &&
    (after (.movn 17 18 8) (two 7 1) fun t => t.x 8 == 7) && (after (.movn 17 18 8) (two 7 0) fun t => t.x 8 == 0x55)) = true := by
  decide +kernel

/-- The no-op word, and a discarded write (R21, R107). -/
theorem test_registerZero :
    (after (.sll 0 0 0) data fun t => decide (t = { data with pc := 0x00400004, npc := 0x00400008 })) = true ∧
    (after (.add 17 18 0) (two 3 4) fun t => t.x 0 == 0) = true := by decide +kernel

/-! ## Branches and jumps (spec/95 section 2.2) -/

/-- The instruction moves to the delay slot with `target` after it. -/
def goes (i : Instr) (s : State) (target : Word) : Bool :=
  after i s fun t => decide (t.pc = s.npc ∧ t.npc = target) && t.inDelay

theorem test_branches :
    (goes (.beq 17 18 3) (two 7 7) 0x00400010 && goes (.beq 17 18 3) (two 7 8) 0x00400008 &&
    goes (.bne 17 0 0xFFFD) (two 1 0) 0x003FFFF8 && goes (.bne 17 0 0xFFFF) (two 0 0) 0x00400008 &&
    goes (.blez 17 2) (two 0x80000000 0) 0x0040000C && goes (.blez 17 2) (two 1 0) 0x00400008 &&
    goes (.bgtz 17 2) (two 0x7FFFFFFF 0) 0x0040000C && goes (.bgtz 17 2) (two 0 0) 0x00400008 &&
    goes (.bc1t 5) (State.reset.setFpcond true) 0x00400018 && goes (.bc1t 5) State.reset 0x00400008 &&
    goes (.bc1f 0xFFFE) State.reset 0x003FFFFC && goes (.bc1f 0xFFFE) (State.reset.setFpcond true) 0x00400008) = true := by
  decide +kernel

theorem test_jumps :
    (goes (.j 0x0100008) State.reset 0x00400020 && goes (.jal 0x0100010) State.reset 0x00400040 &&
    (after (.jal 0x0100010) State.reset fun t => t.x 31 == 0x00400008) &&
    goes (.jr 31) (regs [(31, 0x00400010)]) 0x00400010 && goes (.jr 8) (regs [(8, 0x10010002)]) 0x10010002 &&
    goes (.jalr 25 31) (regs [(25, 0x00400044)]) 0x00400044 &&
    (after (.jalr 25 31) (regs [(25, 0x00400044)]) fun t => t.x 31 == 0x00400008)) = true := by decide +kernel

/-- Refused in a delay slot, and `jalr` of one register twice (R141, R251). -/
theorem test_refusedTransfers :
    (refuses (.j 0x0100000) inSlot .controlTransferInDelaySlot && refuses (.beq 0 0 2) inSlot .controlTransferInDelaySlot &&
    refuses (.jalr 25 25) State.reset .jalrSameRegister && refuses (.jalr 25 25) inSlot .controlTransferInDelaySlot) = true := by decide +kernel

/-! ## Loads and stores (spec/95 section 2.3, R238 to R241) -/

theorem test_loads :
    ((after (.lbu 17 8 3) data fun t => t.x 8 == 0x44) && (after (.lhu 17 8 4) data fun t => t.x 8 == 0x5566) &&
    (after (.lw 17 8 4) data fun t => t.x 8 == 0x55667788) &&
    (after (.ll 4 8 0) data fun t => t.x 8 == 0x11223344 && t.llbit && t.lladdr == 0x10010000) &&
    (after (.lb 17 8 4) (data.setMem (data.mem.write 0x10010004 0x80)) fun t => t.x 8 == 0xFFFFFF80) &&
    (after (.lh 17 8 4) (data.setMem (data.mem.write 0x10010004 0x80)) fun t => t.x 8 == 0xFFFF8066)) = true := by
  decide +kernel

theorem test_stores :
    ((after (.sb 17 8 3) data fun t => t.mem.readWord 0x10010000 == 0x112233DD) &&
    (after (.sh 17 8 2) data fun t => t.mem.readWord 0x10010000 == 0x1122CCDD) &&
    (after (.sw 17 8 4) data fun t => t.mem.readDouble 0x10010000 == 0x11223344AABBCCDD)) = true := by decide +kernel

theorem test_unaligned :
    ((after (.lwl 17 8 1) (data.setX 8 0xAAAAAAAA) fun t => t.x 8 == 0x223344AA) &&
    (after (.lwr 17 8 4) (data.setX 8 0x223344AA) fun t => t.x 8 == 0x22334455) &&
    (after (.swl 17 8 1) data fun t => t.mem.readWord 0x10010000 == 0x11AABBCC) &&
    (after (.swr 17 8 4) data fun t => t.mem.readWord 0x10010004 == 0xDD667788)) = true := by decide +kernel

/-- What the checks raise or refuse (R69, R74, R82). -/
theorem test_accessChecks :
    (faults (.lhu 17 8 1) data .adEL 0x10010001 && faults (.lw 17 8 2) data .adEL 0x10010002 &&
    faults (.sh 17 8 3) data .adES 0x10010003 && faults (.sw 17 8 1) data .adES 0x10010001 &&
    faults (.lw 17 8 0) (at17 0x80000000) .dbe 0x80000000 && faults (.lw 0 8 0) data .dbe 0 &&
    faults (.sw 17 8 0) (at17 0x003FFFFC) .dbe 0x003FFFFC && refuses (.sw 17 8 0) (at17 0x00400000) .storeIntoText &&
    faults (.lwr 17 8 0) (at17 0x80000002) .dbe 0x80000000) = true := by decide +kernel

/-- `sc` without a reservation, and with another address reserved (R159). -/
theorem test_sc_fails :
    (after (.sc 4 8 0) data fun t => t.x 8 == 0 && !t.llbit && decide (t.mem = data.mem)) = true ∧
    refuses (.sc 4 8 4) (data.reserve 0x10010000) .scAddressMismatch = true := by decide +kernel

/-- `sc` with the reservation, for either value of the draw (R159). -/
theorem test_sc_draw :
    (Config.freeBit 0 = false → (storeConditional 8 0x10010000 (data.reserve 0x10010000)).x 8 = 1) ∧
    (Config.freeBit 0 = true → (storeConditional 8 0x10010000 (data.reserve 0x10010000)).x 8 = 0) := by
  have hd : data.draws = 0 := by decide +kernel
  exact ⟨fun h => by simp [storeConditional, h, hd, State.setX, State.x], fun h => by simp [storeConditional, h, hd, Config.scMayFail, State.setX, State.x]⟩

theorem test_fpLoads :
    ((after (.lwc1 17 2 4) data fun t => t.f 2 == 0x55667788) &&
    (after (.ldc1 17 2 0) data fun t => t.f 2 == 0x11223344 && t.f 3 == 0x55667788) &&
    faults (.ldc1 17 2 4) data .adEL 0x10010004 && refuses (.ldc1 17 3 0) data .oddDoubleRegister) = true := by decide +kernel

theorem test_fpStores :
    ((after (.swc1 17 2 4) (data.setF 2 0xCAFEBABE) fun t => t.mem.readWord 0x10010004 == 0xCAFEBABE) &&
    (after (.sdc1 17 2 8) (data.setD 2 0xCAFEBABE01020304) fun t => t.mem.readDouble 0x10010008 == 0xCAFEBABE01020304) &&
    faults (.sdc1 17 2 4) data .adES 0x10010004) = true := by decide +kernel

/-! ## Multiply, divide, system instructions (spec/95 section 2.4, R254 to R265) -/

theorem test_mult :
    ((after (.mult 17 18) (two 0xFFFFFFFE 3) fun t => t.hi == 0xFFFFFFFF && t.lo == 0xFFFFFFFA) &&
    (after (.multu 17 18) (two 0xFFFFFFFE 3) fun t => t.hi == 2 && t.lo == 0xFFFFFFFA)) = true := by decide +kernel

theorem test_div :
    ((after (.div 17 18) (two 0xFFFFFFF9 2) fun t => t.lo == 0xFFFFFFFD && t.hi == 0xFFFFFFFF) &&
    (after (.div 17 18) (two 0x80000000 0xFFFFFFFF) fun t => t.lo == 0x80000000 && t.hi == 0) &&
    (after (.divu 17 18) (two 0xFFFFFFF9 2) fun t => t.lo == 0x7FFFFFFC && t.hi == 1)) = true := by decide +kernel

/-- Division by zero raises nothing and keeps every general register (R178). -/
theorem test_div_zero :
    ∃ t, exec (.div 17 18) (two 5 0) = .next t ∧ (decide (t.outcome = .running) && decide (t.gpr = (two 5 0).gpr)) = true :=
  onward_next (by decide +kernel)

theorem test_hiLo :
    ((after (.mfhi 8) (State.reset.setHiLo 0x12345678 0x9ABCDEF0) fun t => t.x 8 == 0x12345678) &&
    (after (.mflo 8) (State.reset.setHiLo 0x12345678 0x9ABCDEF0) fun t => t.x 8 == 0x9ABCDEF0) &&
    (after (.mthi 17) (two 7 0) fun t => t.hi == 7 && t.lo == 0) &&
    (after (.mtlo 17) (two 7 0) fun t => t.lo == 7 && t.hi == 0)) = true := by decide +kernel

theorem test_mfc0 :
    (faults (.mfc0 8 12) State.reset .cpU 0x40086000 &&
    (after (.mfc0 8 12) { kernel with status := 0xFF01 } fun t => t.x 8 == 0xFF01) &&
    (after (.mfc0 8 13) { kernel with cause := 0x400 } fun t => t.x 8 == 0x400) &&
    refuses (.mfc0 8 14) kernel .unknownControlRegister) = true := by decide +kernel

theorem test_system :
    (faults (.syscall 0) State.reset .sys 0x0000000C && faults (.brk 5) inSlot .bp 0x0000014D &&
    (after .sync data fun t => decide (t.mem = data.mem ∧ t.gpr = data.gpr)) &&
    (after (.pref 0 5 0xFFFF) data fun t => decide (t.mem = data.mem ∧ t.gpr = data.gpr))) = true := by decide +kernel

theorem test_traps :
    (faults (.tge 17 18 0) (two 5 5) .tr 0x02320030 && faults (.tgeu 17 18 0) (two 0xFFFFFFFF 1) .tr 0x02320031 &&
    faults (.tlt 17 18 0) (two 0xFFFFFFFF 1) .tr 0x02320032 && faults (.tltu 17 18 0) (two 1 0xFFFFFFFF) .tr 0x02320033 &&
    faults (.teq 17 18 0) (two 5 5) .tr 0x02320034 && faults (.tne 17 18 0) (two 5 6) .tr 0x02320036) = true := by
  decide +kernel

theorem test_traps_not_taken :
    ((after (.tge 17 18 0) (two 0xFFFFFFFF 1) fun _ => true) && (after (.tgeu 17 18 0) (two 1 2) fun _ => true) &&
    (after (.tlt 17 18 0) (two 5 5) fun _ => true) && (after (.tltu 17 18 0) (two 0xFFFFFFFF 1) fun _ => true) &&
    (after (.teq 17 18 0) (two 5 6) fun _ => true) && (after (.tne 17 18 0) (two 5 5) fun _ => true)) = true := by
  decide +kernel

theorem test_alwaysRefused :
    (refuses (.cache 17 8 4) State.reset .noCache && refuses (.lwc2 17 8 4) State.reset .noCoprocessor2 &&
    refuses (.cvtSS 4 2) State.reset .convertToSameFormat && refuses (.cvtDD 4 2) State.reset .convertToSameFormat) = true := by
  decide +kernel

/-! ## Floating point (spec/95 section 2.5, R271 to R297) -/

/-- Operands in `f[4]`, `f[6]`. -/
def fs (a b : Word) : State := fregs [(4, a), (6, b)]

/-- Operands in `d[4]`, `d[6]`. -/
def ds (a b : Double) : State := (State.reset.setD 4 a).setD 6 b

/-- `f[2]` after the instruction. -/
def gives (i : Instr) (s : State) (v : Word) : Bool := after i s fun t => t.f 2 == v

/-- `d[2]` after the instruction. -/
def givesD (i : Instr) (s : State) (v : Double) : Bool := after i s fun t => t.d 2 == v

theorem test_fp_single :
    (gives (.addS 6 4 2) (fs 0x3FC00000 0x40100000) 0x40700000 && gives (.subS 6 4 2) (fs 0x3FC00000 0x40100000) 0xBF400000 &&
    gives (.mulS 6 4 2) (fs 0x3FC00000 0x40100000) 0x40580000 && gives (.divS 6 4 2) (fs 0x3FC00000 0x40100000) 0x3F2AAAAB &&
    gives (.addS 6 4 2) (fs 0x4B800001 0x3F800000) 0x4B800002 && gives (.mulS 6 4 2) (fs 0x00000003 0x3F000000) 2) = true := by
  decide +kernel

theorem test_fp_double :
    (givesD (.addD 6 4 2) (ds 0x3FB999999999999A 0x3FC999999999999A) 0x3FD3333333333334 &&
    givesD (.subD 6 4 2) (ds 0x3FF8000000000000 0x4002000000000000) 0xBFE8000000000000 &&
    givesD (.mulD 6 4 2) (ds 0x3FF8000000000000 0x4002000000000000) 0x400B000000000000 &&
    givesD (.divD 6 4 2) (ds 0x3FF8000000000000 0x4002000000000000) 0x3FE5555555555555 &&
    refuses (.addD 6 4 3) State.reset .oddDoubleRegister) = true := by decide +kernel

/-- The invalid operations give a NaN, whatever the draw: its class is NaN and every other register is kept (R188 (d)). -/
theorem test_fp_nan :
    Fmt.single.add (single 0x7F800000) (single 0xFF800000) = .nan ∧ Fmt.single.div (single 0) (single 0) = .nan ∧
    Fmt.single.classOf (nanSingle 0).toNat = .nan ∧ Fmt.double.classOf (nanDouble 0).toNat = .nan := by decide +kernel

theorem test_fp_unary :
    (gives (.sqrtS 4 2) (fs 0x40100000 0) 0x3FC00000 && gives (.sqrtS 4 2) (fs 0x40000000 0) 0x3FB504F3 &&
    gives (.absS 4 2) (fs 0xBF400000 0) 0x3F400000 && gives (.negS 4 2) (fs 0x3FC00000 0) 0xBFC00000 &&
    gives (.movS 4 2) (fs 0x7FC00001 0) 0x7FC00001 && givesD (.sqrtD 4 2) (ds 0x4002000000000000 0) 0x3FF8000000000000 &&
    givesD (.absD 4 2) (ds 0x8000000000000000 0) 0 && givesD (.negD 4 2) (ds 0 0) 0x8000000000000000 &&
    givesD (.movD 4 2) (ds 0x7FF0000000000001 0) 0x7FF0000000000001) = true := by decide +kernel

theorem test_fp_conditionalMoves :
    (gives (.movzS 8 4 2) (fs 7 0) 7 && gives (.movzS 8 4 2) ((fs 7 0).setX 8 1) 0 && gives (.movnS 8 4 2) ((fs 7 0).setX 8 1) 7 &&
    gives (.movnS 8 4 2) (fs 7 0) 0 && givesD (.movzD 8 4 2) (ds 7 0) 7 && givesD (.movnD 8 4 2) ((ds 7 0).setX 8 1) 7) = true := by
  decide +kernel

theorem test_fp_toInteger :
    (gives (.roundWS 4 2) (fs 0x40200000 0) 2 && gives (.roundWS 4 2) (fs 0x40600000 0) 4 &&
    gives (.truncWS 4 2) (fs 0xC0300000 0) 0xFFFFFFFE && gives (.ceilWS 4 2) (fs 0xC0100000 0) 0xFFFFFFFE &&
    gives (.floorWS 4 2) (fs 0xC0100000 0) 0xFFFFFFFD && gives (.cvtWS 4 2) (fs 0x40200000 0) 2 &&
    gives (.roundWD 4 2) (ds 0x4004000000000000 0) 2 && gives (.truncWD 4 2) (ds 0xC006000000000000 0) 0xFFFFFFFE &&
    gives (.ceilWD 4 2) (ds 0x4002000000000000 0) 3 && gives (.floorWD 4 2) (ds 0xC002000000000000 0) 0xFFFFFFFD &&
    gives (.cvtWD 4 2) (ds 0x4004000000000000 0) 2) = true := by decide +kernel

theorem test_fp_formats :
    (gives (.cvtSD 4 2) (ds 0x3FB999999999999A 0) 0x3DCCCCCD &&
    givesD (.cvtDS 4 2) (fs 0x3FC00000 0) 0x3FF8000000000000 && givesD (.cvtDS 4 2) (fs 1 0) 0x36A0000000000000) = true := by
  decide +kernel

/-- `fpcond` after the sixteen compares of single precision, in the order of their functions. -/
def conds (s : State) : List Bool :=
  [.cFS 6 4, .cUnS 6 4, .cEqS 6 4, .cUeqS 6 4, .cOltS 6 4, .cUltS 6 4, .cOleS 6 4, .cUleS 6 4, .cSfS 6 4, .cNgleS 6 4,
    .cSeqS 6 4, .cNglS 6 4, .cLtS 6 4, .cNgeS 6 4, .cLeS 6 4, .cNgtS 6 4].map fun i => after i s fun t => t.fpcond

/-- The same of double precision. -/
def condsD (s : State) : List Bool :=
  [.cFD 6 4, .cUnD 6 4, .cEqD 6 4, .cUeqD 6 4, .cOltD 6 4, .cUltD 6 4, .cOleD 6 4, .cUleD 6 4, .cSfD 6 4, .cNgleD 6 4,
    .cSeqD 6 4, .cNglD 6 4, .cLtD 6 4, .cNgeD 6 4, .cLeD 6 4, .cNgtD 6 4].map fun i => after i s fun t => t.fpcond

/-- The condition masks of R297: function `11 cccc` holds when bit 2 meets less, bit 1 equal, bit 0 unordered. -/
def mask (bit : Nat) : List Bool := (List.range 16).map fun c => c.testBit bit

theorem test_fp_compares :
    conds (fs 0x3FC00000 0x40100000) = mask 2 ∧ conds (fs 0x80000000 0) = mask 1 ∧ conds (fs 0x7FC00000 0x3F800000) = mask 0 ∧
    conds (fs 0x7F800000 0xFF800000) = List.replicate 16 false := by decide +kernel

theorem test_fp_compares_double :
    condsD (ds 0x3FF8000000000000 0x4002000000000000) = mask 2 ∧ condsD (ds 0x8000000000000000 0) = mask 1 ∧
    condsD (ds 0x7FF8000000000000 0) = mask 0 := by decide +kernel

/-! ## The step -/

/-- `add $t0,$s1,$s2` placed by `withFetchWord` and run as the first instruction. -/
theorem test_withFetchWord :
    steps ((two 5 7).withFetchWord 32 0x02324020) (fun t => t.x 8 == 12 && t.pc == 0x00400004) = true ∧
    decodeTableWord 32 0x02324020 = some (.add 17 18 8) ∧ decodeTableWord 32 0xFFFFFFFF = none := by decide +kernel

/-- An empty text segment is the no-op; a fetch outside text, misaligned, or of a reserved word (R27, R70, R74, R106). -/
theorem test_step_fetch :
    (steps State.reset (fun t => t.pc == 0x00400004 && decide (t.outcome = .running)) &&
    steps { State.reset with pc := 0x10000000 } (fun t => decide (t.outcome = .faulted 6 0x10000000 false 0x10000000)) &&
    steps { State.reset with pc := 0x00400002 } (fun t => decide (t.outcome = .faulted 4 0x00400002 false 0x00400002)) &&
    steps (State.reset.withFetchWord 32 0xFFFFFFFF) (fun t => decide (t.outcome = .faulted 10 0x00400000 false 0xFFFFFFFF))) = true := by
  decide +kernel

/-- The launch state with interrupts enabled for line 2 and lines 2 and 0 raised at step 0. -/
def interrupted : State := { State.reset with status := 0x0411, irq := .listed [0x05] 0 }

/-- An interrupt is taken before the instruction, with the lines as info (R311, R313). -/
theorem test_step_interrupt :
    steps interrupted (fun t => decide (t.outcome = .faulted 0 0x00400000 false 5) && t.ip == 5 && t.el) = true := by decide +kernel

/-- A line held for ever interrupts at whatever step the run has reached (R313). -/
theorem test_step_interrupt_held :
    steps { State.reset with status := 0x0411, irq := .listed [] 0x04, stepNo := 1000 }
      (fun t => decide (t.outcome = .faulted 0 0x00400000 false 4)) = true := by decide +kernel

/-- The end of the run (R346), and no step after it (R27 step 0). -/
theorem test_step_end :
    steps { State.reset with endPc := some 0x00400000 } (fun t => decide (t.outcome = .ended) && t.pc == 0x00400000) = true ∧
    step { State.reset with outcome := .ended } = .fault .runIsOver :=
  ⟨by decide +kernel, step_after_end (by decide)⟩

/-- The expansions of the spec (spec/95 section 2.6). -/
theorem test_pseudo :
    (Pseudo.blt 17 18 3).expand.map encode = [0x0232082A, 0x14200003] ∧
    (Pseudo.bgt 17 18 3).expand.map encode = [0x0251082A, 0x14200003] ∧
    (Pseudo.ble 17 18 3).expand.map encode = [0x0251082A, 0x10200003] ∧
    (Pseudo.bge 17 18 3).expand.map encode = [0x0232082A, 0x10200003] ∧
    (Pseudo.li 8 0xFFFFFFFF).expand.map encode = [0x2408FFFF] ∧ (Pseudo.li 8 0xFFFF).expand.map encode = [0x3408FFFF] := by
  decide +kernel

/-! ## Witnesses: for each obligation with hypotheses, states and operands that meet them, clause by clause -/

/-- ImmediateForms: an aligned pc, at the last word of a region and elsewhere. -/
theorem witness_ImmediateForms :
    (0x0FFFFFFC#32).toNat % 4 = 0 ∧ (0x0FFFFFFC#32 + 4).extractLsb' 28 4 ≠ (0x0FFFFFFC#32).extractLsb' 28 4 ∧
    (0x0FFFFFF8#32).toNat % 4 = 0 ∧ (0x0FFFFFF8#32 + 4).extractLsb' 28 4 = (0x0FFFFFF8#32).extractLsb' 28 4 := by decide

/-- EncodeDecode: a word that decodes. -/
theorem witness_EncodeDecode : decode 0x02324020 = .ok (.add 17 18 8) := by decide +kernel

/-- ReservedWords: a word for each clause. -/
theorem witness_ReservedWords :
    (opField 0xFC000000).toNat = 0x3F ∧ (opField 0x04000000).toNat = 0x01 ∧
    ((opField 0x00000001).toNat = 0 ∧ (functField 0x00000001).toNat = 0x01) ∧
    ((opField 0x46000008).toNat = 0x11 ∧ (fmtField 0x46000008).toNat = 0x10 ∧ (functField 0x46000008).toNat = 0x08) ∧
    ((opField 0x46862080).toNat = 0x11 ∧ (fmtField 0x46862080).toNat = 0x14) ∧
    ((opField 0x45020005).toNat = 0x11 ∧ (fmtField 0x45020005).toNat = 0x08 ∧ 2 ≤ (ftField 0x45020005).toNat) ∧
    ((opField 0x40886000).toNat = 0x10 ∧ (rsField 0x40886000).toNat ≠ 0) ∧ decode 0x02324060 = .error .unusedField := by
  decide +kernel

/-- ReservedWords: a word for each row of unused fields (R105). -/
theorem witness_ReservedWords_unused :
    (opField 0x02324060 = 0 ∧ (functField 0x02324060).toNat = 0x20 ∧ shamtField 0x02324060 ≠ 0) ∧
    ((functField 0x02284080).toNat = 0x00 ∧ rsField 0x02284080 ≠ 0) ∧
    ((functField 0x03E10008).toNat = 0x08 ∧ rtField 0x03E10008 ≠ 0) ∧
    ((functField 0x0321F809).toNat = 0x09 ∧ rtField 0x0321F809 ≠ 0) ∧
    ((functField 0x02004010).toNat = 0x10 ∧ rsField 0x02004010 ≠ 0) ∧
    ((functField 0x02010011).toNat = 0x11 ∧ rtField 0x02010011 ≠ 0) ∧
    ((functField 0x02324018).toNat = 0x18 ∧ rdField 0x02324018 ≠ 0) ∧
    ((functField 0x0000004F).toNat = 0x0F ∧ shamtField 0x0000004F ≠ 0) ∧
    ((opField 0x3E280001).toNat = 0x0F ∧ rsField 0x3E280001 ≠ 0) ∧
    ((opField 0x1A210001).toNat = 0x06 ∧ rtField 0x1A210001 ≠ 0) ∧
    ((opField 0x40086040).toNat = 0x10 ∧ rsField 0x40086040 = 0 ∧ shamtField 0x40086040 ≠ 0) ∧
    ((opField 0x46012085).toNat = 0x11 ∧ fmtField 0x46012085 = 0x10 ∧ (functField 0x46012085).toNat = 0x05 ∧
      ftField 0x46012085 ≠ 0) ∧
    (fmtField 0x46262072 = 0x11 ∧ 0x30 ≤ (functField 0x46262072).toNat ∧ fdField 0x46262072 ≠ 0) := by
  decide +kernel

/-- SignedOverflow: exact results at the edges of what fits, and one past each. -/
theorem witness_SignedOverflow :
    ((two 0x7FFFFFFE 1).x 17).toInt + ((two 0x7FFFFFFE 1).x 18).toInt = 2 ^ 31 - 1 ∧
    ((two 0x7FFFFFFF 1).x 17).toInt + ((two 0x7FFFFFFF 1).x 18).toInt = 2 ^ 31 ∧
    ((two 0x80000000 0).x 17).toInt + (0xFFFF#16).toInt = -2 ^ 31 - 1 ∧
    ((two 0x80000001 0).x 17).toInt + (0xFFFF#16).toInt = -2 ^ 31 ∧
    ((two 0 0x80000000).x 17).toInt - ((two 0 0x80000000).x 18).toInt = 2 ^ 31 ∧
    ((two 0x80000000 0).x 17).toInt - ((two 0x80000000 0).x 18).toInt = -2 ^ 31 := by decide +kernel

/-- Branches, Jumps, MapOnlyTransfers: outside a delay slot, two different registers. -/
theorem witness_Branches_Jumps_MapOnlyTransfers : (two 7 7).inDelay = false ∧ (31 : RegNum) ≠ 25 := by decide +kernel

/-- NoTransferInDelaySlot. -/
theorem witness_NoTransferInDelaySlot : inSlot.inDelay = true ∧ (Instr.jalr 25 25).isTransfer = true := by decide

/-- TargetAfterDelaySlot: the no-op in a delay slot. -/
theorem witness_TargetAfterDelaySlot :
    inSlot.inDelay = true ∧ ∃ t, step inSlot = .next t ∧ decide (t.outcome = .running) = true :=
  ⟨rfl, onward_next (by decide +kernel)⟩

/-- Loads, MapOnlyLoads, FpLoadsStores: readable bytes up to the last ones mapped, of each size. -/
theorem witness_Loads :
    Allowed (at17 0x7FFFFFFF) .read ((at17 0x7FFFFFFF).ea 17 0) 1 ∧
    (((at17 0x00400000).ea 17 0).toNat % 2 = 0 ∧ Allowed (at17 0x00400000) .read ((at17 0x00400000).ea 17 0) 2) ∧
    (((at17 0x7FFFFFFC).ea 17 0).toNat % 4 = 0 ∧ Allowed (at17 0x7FFFFFFC) .read ((at17 0x7FFFFFFC).ea 17 0) 4) ∧
    (((at17 0x7FFFFFF8).ea 17 0).toNat % 8 = 0 ∧ (2 : RegNum).toNat % 2 = 0 ∧
      Allowed (at17 0x7FFFFFF8) .read ((at17 0x7FFFFFF8).ea 17 0) 8) :=
  ⟨allowed (by decide +kernel), ⟨by decide +kernel, allowed (by decide +kernel)⟩,
    ⟨by decide +kernel, allowed (by decide +kernel)⟩, by decide +kernel, by decide, allowed (by decide +kernel)⟩

/-- Stores, FpLoadsStores: writable bytes from the first ones mapped, of each size, in well-formed memory. -/
theorem witness_Stores :
    data.mem.wf = true ∧ (at17 0x10000000).mem.wf = true ∧
    Allowed (at17 0x7FFFFFFF) .write ((at17 0x7FFFFFFF).ea 17 0) 1 ∧
    (((at17 0x10000000).ea 17 0).toNat % 2 = 0 ∧ Allowed (at17 0x10000000) .write ((at17 0x10000000).ea 17 0) 2) ∧
    (((at17 0x10000000).ea 17 0).toNat % 4 = 0 ∧ Allowed (at17 0x10000000) .write ((at17 0x10000000).ea 17 0) 4) ∧
    (((at17 0x10000000).ea 17 0).toNat % 8 = 0 ∧ Allowed (at17 0x10000000) .write ((at17 0x10000000).ea 17 0) 8) :=
  ⟨by decide +kernel, by decide +kernel, allowed (by decide +kernel), ⟨by decide +kernel, allowed (by decide +kernel)⟩,
    ⟨by decide +kernel, allowed (by decide +kernel)⟩, by decide +kernel, allowed (by decide +kernel)⟩

/-- FpLoadsStores: an aligned double with an odd register number. -/
theorem witness_FpLoadsStores : (data.ea 17 8).toNat % 8 = 0 ∧ (3 : RegNum).toNat % 2 = 1 ∧ data.mem.wf = true := by decide +kernel

/-- StoreConditional: no reservation, the reservation of the address, another address; the draw has one of two values. -/
theorem witness_StoreConditional :
    data.mem.wf = true ∧ (data.ea 17 0).toNat % 4 = 0 ∧ Allowed data .write (data.ea 17 0) 4 ∧ data.llbit = false ∧
    ((data.reserve 0x10010000).llbit = true ∧ (data.reserve 0x10010000).lladdr = (data.reserve 0x10010000).ea 17 0) ∧
    ((data.reserve 0x10010004).llbit = true ∧ (data.reserve 0x10010004).lladdr ≠ (data.reserve 0x10010004).ea 17 0) ∧
    (Config.freeBit data.draws = false ∨ Config.freeBit data.draws = true) :=
  ⟨by decide +kernel, by decide +kernel, allowed (by decide +kernel), rfl, by decide +kernel, by decide +kernel,
    by cases Config.freeBit data.draws <;> simp⟩

/-- UnalignedStores, MapOnlyLoads: an address in the middle of the last word. -/
theorem witness_UnalignedStores :
    (at17 0x7FFFFFFE).mem.wf = true ∧ (at17 0x7FFFFFFE).ea 17 0 - BitVec.ofNat 32 (((at17 0x7FFFFFFE).ea 17 0).toNat % 4) = 0x7FFFFFFC ∧
    Allowed (at17 0x7FFFFFFE) .read 0x7FFFFFFC 4 ∧ Allowed (at17 0x7FFFFFFE) .write 0x7FFFFFFC 4 :=
  ⟨by decide +kernel, by decide +kernel, allowed (by decide +kernel), allowed (by decide +kernel)⟩

/-- UnalignedPairs: an address across two words. -/
theorem witness_UnalignedPairs :
    data.mem.wf = true ∧ ((17 : RegNum) ≠ 8 ∨ (8 : RegNum) = 0) ∧ ((17 : RegNum) ≠ 0 ∨ (0 : RegNum) = 0) ∧ data.ea 17 4 = data.ea 17 1 + 3 ∧
    Allowed data .read (wordBase (data.ea 17 1)) 4 ∧ Allowed data .read (wordBase (data.ea 17 1 + 3)) 4 ∧
    Allowed data .write (wordBase (data.ea 17 1)) 4 ∧ Allowed data .write (wordBase (data.ea 17 1 + 3)) 4 :=
  ⟨by decide +kernel, by decide, by decide, by decide +kernel, allowed (by decide +kernel), allowed (by decide +kernel),
    allowed (by decide +kernel), allowed (by decide +kernel)⟩

/-- MisalignedAccesses: an odd halfword, a word off by two, a double off by four. -/
theorem witness_MisalignedAccesses :
    (data.ea 17 1).toNat % 2 ≠ 0 ∧ (data.ea 17 2).toNat % 4 ≠ 0 ∧ (data.ea 17 4).toNat % 8 ≠ 0 := by decide +kernel

/-- UnmappedAccesses: reads and writes the map does not allow, of each size, in and out of the text segment. -/
theorem witness_UnmappedAccesses :
    (¬ Allowed (at17 0x003FFFFF) .read ((at17 0x003FFFFF).ea 17 0) 1 ∧ ¬ Allowed (at17 0x80000000) .read ((at17 0x80000000).ea 17 0) 8 ∧
      ((at17 0x80000000).ea 17 0).toNat % 8 = 0) ∧
    (¬ Allowed (at17 0x80000000) .read ((at17 0x80000000).ea 17 0) 2 ∧ ¬ Allowed (at17 0x80000000) .read ((at17 0x80000000).ea 17 0) 4) ∧
    (¬ Allowed (at17 0x0FFFFFF8) .write ((at17 0x0FFFFFF8).ea 17 0) 8 ∧ ((at17 0x0FFFFFF8).ea 17 0).toNat % 8 = 0 ∧
      0x00400000 ≤ ((at17 0x0FFFFFF8).ea 17 0).toNat ∧ ((at17 0x0FFFFFF8).ea 17 0).toNat ≤ 0x0FFFFFFF) ∧
    (¬ Allowed (at17 0x80000000) .write ((at17 0x80000000).ea 17 0) 1 ∧ ¬ Allowed (at17 0x80000000) .write ((at17 0x80000000).ea 17 0) 2 ∧
      ¬ Allowed (at17 0x80000000) .write ((at17 0x80000000).ea 17 0) 4 ∧ 0x0FFFFFFF < ((at17 0x80000000).ea 17 0).toNat) ∧
    (Allowed (at17 0x00400001) .read (wordBase ((at17 0x00400001).ea 17 0)) 4 ∧
      ¬ Allowed (at17 0x00400001) .write (wordBase ((at17 0x00400001).ea 17 0)) 4) ∧
    ¬ Allowed (at17 0x80000002) .read (wordBase ((at17 0x80000002).ea 17 0)) 4 :=
  ⟨⟨notAllowed (by decide +kernel), notAllowed (by decide +kernel), by decide +kernel⟩,
    ⟨notAllowed (by decide +kernel), notAllowed (by decide +kernel)⟩,
    ⟨notAllowed (by decide +kernel), by decide +kernel, by decide +kernel, by decide +kernel⟩,
    ⟨notAllowed (by decide +kernel), notAllowed (by decide +kernel), notAllowed (by decide +kernel), by decide +kernel⟩,
    ⟨allowed (by decide +kernel), notAllowed (by decide +kernel)⟩, notAllowed (by decide +kernel)⟩

/-- MixedWidths: a well-formed memory with something in it. -/
theorem witness_MixedWidths : data.mem.wf = true ∧ data.mem.read 0x10010000 = 0x11 := by decide +kernel

/-- Divide: a divisor that is not zero, the quotient that does not fit, a zero divisor. -/
theorem witness_Divide :
    (two 7 0xFFFFFFFE).x 18 ≠ 0 ∧ (((two 0x80000000 0xFFFFFFFF).x 17).toInt = -2 ^ 31 ∧ ((two 0x80000000 0xFFFFFFFF).x 18).toInt = -1) ∧
    (two 7 0).x 18 = 0 := by decide +kernel

/-- HiLoPrivate: `add`. -/
theorem witness_HiLoPrivate :
    (∀ rs rt, Instr.add 17 18 8 ≠ .mult rs rt ∧ Instr.add 17 18 8 ≠ .multu rs rt ∧ Instr.add 17 18 8 ≠ .div rs rt ∧
      Instr.add 17 18 8 ≠ .divu rs rt) ∧
    (∀ r, Instr.add 17 18 8 ≠ .mfhi r ∧ Instr.add 17 18 8 ≠ .mflo r ∧ Instr.add 17 18 8 ≠ .mthi r ∧
      Instr.add 17 18 8 ≠ .mtlo r) := by simp

/-- FpcondPrivate: `add`, and `add.s`, which has the compares' opcode. -/
theorem witness_FpcondPrivate :
    ¬ (opField (encode (.addS 6 4 2)) = 0x11 ∧ fmtField (encode (.addS 6 4 2)) = 0x08) ∧
    ¬ (opField (encode (.addS 6 4 2)) = 0x11 ∧ 0x30 ≤ (functField (encode (.addS 6 4 2))).toNat ∧
        (fmtField (encode (.addS 6 4 2)) = 0x10 ∨ fmtField (encode (.addS 6 4 2)) = 0x11)) ∧
    opField (encode (.add 17 18 8)) ≠ 0x11 := by decide +kernel

/-- ControlRegisterRead: kernel mode both ways, another number, user mode. -/
theorem witness_ControlRegisterRead :
    kernel.um = false ∧ { State.reset with status := 0x12 }.el = true ∧ ((14 : RegNum) ≠ 12 ∧ (14 : RegNum) ≠ 13) ∧
    ¬ (State.reset.um = false ∨ State.reset.el = true) := by decide +kernel

/-- ConditionalTraps: each comparison true and false. -/
theorem witness_ConditionalTraps :
    ((two 5 5).x 18).toInt ≤ ((two 5 5).x 17).toInt ∧ ¬ ((two 0xFFFFFFFF 1).x 18).toInt ≤ ((two 0xFFFFFFFF 1).x 17).toInt ∧
    ((two 5 5).x 18).toNat ≤ ((two 5 5).x 17).toNat ∧ ¬ ((two 1 2).x 18).toNat ≤ ((two 1 2).x 17).toNat ∧
    (two 5 5).x 17 = (two 5 5).x 18 ∧ (two 1 2).x 17 ≠ (two 1 2).x 18 := by decide +kernel

/-- FpArithmeticDouble, FpUnaryAndMoves, FpToInteger, FpBetweenFormats, FpCompares, MapOnlyCompares: even numbers, an odd one. -/
theorem witness_doubles : (6 : RegNum).toNat % 2 = 0 ∧ (30 : RegNum).toNat % 2 = 0 ∧ (31 : RegNum).toNat % 2 = 1 := by decide

/-- FpUnaryAndMoves: a NaN and a number, a zero and a non-zero general register. -/
theorem witness_FpUnaryAndMoves :
    Fmt.single.classOf ((fs 0x7FC00000 0).f 4).toNat = .nan ∧ Fmt.single.classOf ((fs 0x3F800000 0).f 4).toNat = .normal ∧
    (two 0 0).x 17 = 0 ∧ (two 1 0).x 17 ≠ 0 := by decide +kernel

/-- FpToInteger: the largest single that converts, and the next one, which has no integer. -/
theorem witness_FpToInteger :
    Fmt.single.toInt32 .nearestEven (single 0x4EFFFFFF) = some 0x7FFFFF80 ∧
    Fmt.single.toInt32 .nearestEven (single 0x4F000000) = none ∧
    Fmt.single.toInt32 .towardZero (single 0xCF000000) = some 0x80000000 := by decide +kernel

/-- IntegerRounding, CompareRelation: a value with a number, and two without. -/
theorem witness_IntegerRounding :
    FpVal.rat .single .nan = none ∧ FpVal.rat .single (.inf true) = none ∧
    FpVal.rat .single (.fin true 3) = some ((-3 : ℚ) / 2 ^ 149) :=
  ⟨rfl, rfl, by simp [FpVal.rat, signed, Fmt.unitExp, Fmt.bias, Fmt.fracBits]⟩

/-- CompareRelation: two finite values, a NaN, an infinity beside a finite value. -/
theorem witness_CompareRelation :
    compareFp (.fin true 0) (.fin false 0) = .equal ∧ compareFp .nan (.fin false 0) = .unordered ∧
    ∃ p q, FpVal.rat .single (.fin true 0) = some p ∧ FpVal.rat .single (.fin false 3) = some q :=
  ⟨by decide, by decide, _, _, rfl, rfl⟩

/-- FpBetweenFormats: a NaN, an infinity and a denormal single. -/
theorem witness_FpBetweenFormats :
    single 0x7FC00000 = .nan ∧ single 0xFF800000 = .inf true ∧ single 0x00000001 = .fin false 1 ∧
    single 0x80000000 = .fin true 0 := by decide +kernel

/-- RoundsToNearestEven: a tie that rounds to an even finite pattern, the largest finite value, and half a unit above it. -/
theorem witness_RoundsToNearestEven :
    Fmt.single.roundMag 3 2 = 2 ∧ Fmt.single.roundMag ((2 ^ 24 - 1) * 2 ^ 253) 1 = 0x7F7FFFFF ∧
    Fmt.single.roundMag ((2 ^ 25 - 1) * 2 ^ 252) 1 = Fmt.single.infMag ∧
    Fmt.single.roundMag ((2 ^ 25 - 1) * 2 ^ 252 - 1) 1 ≠ Fmt.single.infMag ∧ Fmt.single.value 2 = .fin false 2 := by decide +kernel

/-- FpSpecialValues: a magnitude, a sum and a difference that are not zero, and each class of field values at its edges. -/
theorem witness_FpSpecialValues :
    0 < 1 ∧ signed true 3 + signed false 5 ≠ 0 ∧ signed true 5 + signed false 3 ≠ 0 ∧ signed true 3 - signed true 5 ≠ 0 ∧
    ((0x807FFFFF#32).extractLsb' 23 8).toNat = 0 ∧ ((0x00800000#32).extractLsb' 23 8).toNat = 1 ∧
    ((0xFF7FFFFF#32).extractLsb' 23 8).toNat = 254 ∧ ((0x7F800000#32).extractLsb' 23 8).toNat = 255 ∧
    ((0x7FEFFFFFFFFFFFFF#64).extractLsb' 52 11).toNat = 2046 ∧ ((0xFFF0000000000001#64).extractLsb' 52 11).toNat = 2047 := by
  decide +kernel

/-- SquareRootIsNearest: the smallest denormal and 2.0. -/
theorem witness_SquareRootIsNearest :
    Fmt.single.value 1 = .fin false 1 ∧ Fmt.single.value 0x40000000 = .fin false (2 ^ 150) ∧ 0 < 2 ^ 150 := by decide +kernel

/-- A state in mid-run: `add` at pc, a negative status field, interrupts raised but masked, END_PC elsewhere. -/
def midRun : State :=
  { (two 5 7).withFetchWord 32 0x02324020 with status := 0x0211, irq := .listed [0x05] 0, endPc := some 0x00400008 }

/-- StepRunsDecoded. -/
theorem witness_StepRunsDecoded :
    midRun.outcome = .running ∧ midRun.endPc ≠ some midRun.pc ∧ midRun.sampleIrq.interruptCondition = false ∧
    midRun.pc.toNat % 4 = 0 ∧ Allowed midRun .fetch midRun.pc 4 ∧
    decodeBytes [midRun.mem.read midRun.pc, midRun.mem.read (midRun.pc + 1), midRun.mem.read (midRun.pc + 2),
      midRun.mem.read (midRun.pc + 3)] = .ok (.add 17 18 8) :=
  ⟨rfl, by decide +kernel, by decide +kernel, by decide +kernel, allowed (by decide +kernel), by decide +kernel⟩

/-- FetchExceptions: a misaligned pc, the first address after text, a reserved word. -/
theorem witness_FetchExceptions :
    ({ State.reset with pc := 0x00400001 }.pc.toNat % 4 ≠ 0 ∧
      { State.reset with pc := 0x00400001 }.sampleIrq.interruptCondition = false) ∧
    ¬ Allowed { State.reset with pc := 0x10000000 } .fetch 0x10000000 4 ∧
    Allowed (State.reset.withFetchWord 32 0xFFFFFFFF) .fetch 0x00400000 4 ∧
    (∀ i, decode ((State.reset.withFetchWord 32 0xFFFFFFFF).mem.readWord 0x00400000) ≠ .ok i) := by
  refine ⟨by decide +kernel, notAllowed (by decide +kernel), allowed (by decide +kernel), fun i h => ?_⟩
  have e : decode ((State.reset.withFetchWord 32 0xFFFFFFFF).mem.readWord 0x00400000) = .error .blankOpcode := by decide +kernel
  rw [e] at h; cases h

/-- Interrupts: taken, disabled, at exception level, masked. -/
theorem witness_Interrupts :
    (interrupted.outcome = .running ∧ interrupted.endPc ≠ some interrupted.pc ∧ interrupted.ie = true ∧ interrupted.el = false ∧
      interrupted.irqNow &&& interrupted.im ≠ 0) ∧
    { interrupted with status := 0x0410 }.ie = false ∧ { interrupted with status := 0x0413 }.el = true ∧
    midRun.irqNow &&& midRun.im = 0 := by decide +kernel

/-- EndOfRun: at END_PC, and after an end. -/
theorem witness_EndOfRun :
    State.reset.outcome = .running ∧ { State.reset with endPc := some 0x00400000 }.endPc = some State.reset.pc ∧ State.reset.inDelay = false ∧
    { State.reset with outcome := .ended }.outcome ≠ .running := by decide +kernel

/-- StepKeepsInvariant, ModeIsFixed, TextIsImmutable: a state in mid-run with the invariant, and its step. -/
theorem witness_StepKeepsInvariant : midRun.Inv ∧ ∃ t, step midRun = .next t := by
  refine ⟨⟨by decide +kernel, by decide +kernel, by decide +kernel, by decide +kernel, by decide +kernel, by decide +kernel,
    fun _ _ _ _ h => ?_, fun _ _ _ _ h => ?_, fun _ h => ?_⟩, ?_⟩
  · simp [show midRun.outcome = .running from rfl] at h
  · simp [show midRun.outcome = .running from rfl] at h
  · simp [show midRun.outcome = .running from rfl] at h
  · obtain ⟨t, h, _⟩ := onward_next (r := step midRun) (p := fun _ => true) (by decide +kernel)
    exact ⟨t, h⟩

/-- TextIsImmutable: the decided map is within itself, and an address on each side of the data range. -/
theorem witness_TextIsImmutable : Narrows State.reset.memMap ∧ Narrows [] ∧ (0x0FFFFFFF#32).toNat < 0x10000000 :=
  ⟨fun _ _ h => h, fun _ _ h => by simp [mapped] at h, by decide⟩

/-- PreciseExceptions, OnlyNamedRegistersChange: an instruction that completes, and one that traps. -/
theorem witness_PreciseExceptions :
    (∃ t, exec (.jal 0x0100010) State.reset = .next t ∧ decide (t.x 31 ≠ State.reset.x 31) = true) ∧
    (∃ t, exec (.lwc1 17 2 4) data = .next t ∧ decide (t.f 2 ≠ data.f 2) = true) ∧
    ∃ t, exec (.syscall 0) State.reset = .next t ∧ decide (t.outcome ≠ .running) = true :=
  ⟨onward_next (by decide +kernel), onward_next (by decide +kernel), onward_next (by decide +kernel)⟩

/-- RefusalsOfWellFormed: a well-formed instruction refused for each of the three reasons. -/
theorem witness_RefusalsOfWellFormed :
    ((Instr.j 0).wellFormed = true ∧ exec (.j 0) inSlot = .refused .controlTransferInDelaySlot) ∧
    ((Instr.sw 17 8 0).wellFormed = true ∧ exec (.sw 17 8 0) (at17 0x00400000) = .refused .storeIntoText) ∧
    ((Instr.sc 4 8 4).wellFormed = true ∧ exec (.sc 4 8 4) (data.reserve 0x10010000) = .refused .scAddressMismatch) :=
  ⟨⟨by decide, refused_of (by decide +kernel)⟩, ⟨by decide, refused_of (by decide +kernel)⟩, by decide,
    refused_of (by decide +kernel)⟩

end Sys2Proof.Tests
end

section
/-! PROOFS. The arithmetic and logic instructions that write one general register and raise nothing: `Obligations.CoreAlu` (O6)
and `Obligations.LuiAndShifts` (O7). Each is one `setX` and then `done`, so `writesGpr_of_setX` gives result, frame and program
counters at once; what is left of an instruction is its value, where the model's operation on words meets the rule's
arithmetic on integers. -/

namespace Sys2Proof.Machine

/-! ## One write of a general register -/

/-- `written` is the word the model computes, `value` the word the rule names. -/
theorem writesGpr_of_setX {i : Instr} {rd : RegNum} {written value : State → Word}
    (hx : ∀ s, exec i s = done (s.setX rd (written s))) (hv : ∀ s, written s = value s) : WritesGpr i rd value := fun s =>
  completes_of (hx s) (by simp [setX_x_same, afterWrite, hv]) (changes_setX s rd (written s)) ⟨rfl, rfl, rfl⟩ rfl

/-! ## The immediates and the truth value, as the rules write them -/

theorem signExtImm_eq_ofInt (imm : Half) : signExtImm imm = BitVec.ofInt 32 imm.toInt := rfl

theorem toInt_signExtImm (imm : Half) : (signExtImm imm).toInt = imm.toInt := BitVec.toInt_signExtend_of_le (by decide)

theorem zeroExtImm_eq_append (imm : Half) : zeroExtImm imm = 0#16 ++ imm := BitVec.setWidth_eq_append (by decide)

theorem truth_decide (p : Prop) [Decidable p] : truth (decide p) = if p then 1 else 0 := by
  by_cases h : p <;> simp [truth, h]

theorem truth_lessSigned (a b : Word) : truth (lessSigned a b) = if a.toInt < b.toInt then 1 else 0 := truth_decide _

theorem truth_lessUnsigned (a b : Word) : truth (lessUnsigned a b) = if a.toNat < b.toNat then 1 else 0 := truth_decide _

/-! ## Word operations as arithmetic on integers -/

theorem add_signExtImm (a : Word) (imm : Half) : a + signExtImm imm = BitVec.ofInt 32 (a.toInt + imm.toInt) := by
  rw [BitVec.ofInt_add, BitVec.ofInt_toInt, signExtImm_eq_ofInt]

theorem add_eq_ofNat (a b : Word) : a + b = BitVec.ofNat 32 (a.toNat + b.toNat) :=
  BitVec.eq_of_toNat_eq (by simp)

theorem sub_eq_ofInt (a b : Word) : a - b = BitVec.ofInt 32 (a.toInt - b.toInt) :=
  BitVec.eq_of_toInt_eq (by simp)

theorem shiftLeft_eq_ofNat (a : Word) (n : Nat) : a <<< n = BitVec.ofNat 32 (a.toNat * 2 ^ n) :=
  BitVec.eq_of_toNat_eq (by simp [Nat.shiftLeft_eq])

theorem ushiftRight_eq_ofNat (a : Word) (n : Nat) : a >>> n = BitVec.ofNat 32 (a.toNat / 2 ^ n) := by
  have small : a.toNat / 2 ^ n < 2 ^ 32 := (Nat.div_le_self _ _).trans_lt a.isLt
  apply BitVec.eq_of_toNat_eq
  rw [BitVec.toNat_ushiftRight, Nat.shiftRight_eq_div_pow, BitVec.toNat_ofNat, Nat.mod_eq_of_lt small]

theorem sshiftRight_eq_ofInt (a : Word) (n : Nat) : a.sshiftRight n = BitVec.ofInt 32 (a.toInt / 2 ^ n) := by
  rw [BitVec.sshiftRight, Int.shiftRight_eq_div_pow, Nat.cast_pow, Nat.cast_ofNat]

/-! ## The core operations (R122 to R125, R127 to R133, R137) -/

theorem writesGpr_addiu (rs rt : RegNum) (imm : Half) :
    WritesGpr (.addiu rs rt imm) rt fun s => BitVec.ofInt 32 ((s.x rs).toInt + imm.toInt) :=
  writesGpr_of_setX (fun _ => rfl) fun s => add_signExtImm (s.x rs) imm

theorem writesGpr_addu (rs rt rd : RegNum) :
    WritesGpr (.addu rs rt rd) rd fun s => BitVec.ofNat 32 ((s.x rs).toNat + (s.x rt).toNat) :=
  writesGpr_of_setX (fun _ => rfl) fun s => add_eq_ofNat (s.x rs) (s.x rt)

theorem writesGpr_and (rs rt rd : RegNum) : WritesGpr (.and rs rt rd) rd fun s => s.x rs &&& s.x rt :=
  writesGpr_of_setX (fun _ => rfl) fun _ => rfl

theorem writesGpr_andi (rs rt : RegNum) (imm : Half) :
    WritesGpr (.andi rs rt imm) rt fun s => s.x rs &&& (0#16 ++ imm) :=
  writesGpr_of_setX (fun _ => rfl) fun s => congrArg (s.x rs &&& ·) (zeroExtImm_eq_append imm)

theorem writesGpr_nor (rs rt rd : RegNum) : WritesGpr (.nor rs rt rd) rd fun s => ~~~(s.x rs ||| s.x rt) :=
  writesGpr_of_setX (fun _ => rfl) fun _ => rfl

theorem writesGpr_or (rs rt rd : RegNum) : WritesGpr (.or rs rt rd) rd fun s => s.x rs ||| s.x rt :=
  writesGpr_of_setX (fun _ => rfl) fun _ => rfl

theorem writesGpr_ori (rs rt : RegNum) (imm : Half) :
    WritesGpr (.ori rs rt imm) rt fun s => s.x rs ||| (0#16 ++ imm) :=
  writesGpr_of_setX (fun _ => rfl) fun s => congrArg (s.x rs ||| ·) (zeroExtImm_eq_append imm)

theorem writesGpr_slt (rs rt rd : RegNum) :
    WritesGpr (.slt rs rt rd) rd fun s => if (s.x rs).toInt < (s.x rt).toInt then 1 else 0 :=
  writesGpr_of_setX (fun _ => rfl) fun s => truth_lessSigned (s.x rs) (s.x rt)

theorem writesGpr_slti (rs rt : RegNum) (imm : Half) :
    WritesGpr (.slti rs rt imm) rt fun s => if (s.x rs).toInt < imm.toInt then 1 else 0 :=
  writesGpr_of_setX (fun _ => rfl) fun s => by rw [truth_lessSigned, toInt_signExtImm]

theorem writesGpr_sltiu (rs rt : RegNum) (imm : Half) :
    WritesGpr (.sltiu rs rt imm) rt fun s => if (s.x rs).toNat < (imm.signExtend 32).toNat then 1 else 0 :=
  writesGpr_of_setX (fun _ => rfl) fun s => truth_lessUnsigned (s.x rs) (signExtImm imm)

theorem writesGpr_sltu (rs rt rd : RegNum) :
    WritesGpr (.sltu rs rt rd) rd fun s => if (s.x rs).toNat < (s.x rt).toNat then 1 else 0 :=
  writesGpr_of_setX (fun _ => rfl) fun s => truth_lessUnsigned (s.x rs) (s.x rt)

theorem writesGpr_subu (rs rt rd : RegNum) :
    WritesGpr (.subu rs rt rd) rd fun s => BitVec.ofInt 32 ((s.x rs).toInt - (s.x rt).toInt) :=
  writesGpr_of_setX (fun _ => rfl) fun s => sub_eq_ofInt (s.x rs) (s.x rt)

/-- Settles O6: each word is its format's field layout, each result its instruction's rule above. -/
theorem coreAlu : Obligations.CoreAlu := by
  intro rs rt rd imm
  refine ⟨⟨?addiu, writesGpr_addiu rs rt imm⟩, ⟨?addu, writesGpr_addu rs rt rd⟩, ⟨?and, writesGpr_and rs rt rd⟩,
    ⟨?andi, writesGpr_andi rs rt imm⟩, ⟨?nor, writesGpr_nor rs rt rd⟩, ⟨?or, writesGpr_or rs rt rd⟩,
    ⟨?ori, writesGpr_ori rs rt imm⟩, ⟨?slt, writesGpr_slt rs rt rd⟩, ⟨?slti, writesGpr_slti rs rt imm⟩,
    ⟨?sltiu, writesGpr_sltiu rs rt imm⟩, ⟨?sltu, writesGpr_sltu rs rt rd⟩, ⟨?subu, writesGpr_subu rs rt rd⟩⟩
  case addiu | andi | ori | slti | sltiu => exact iWord_eq _ rs rt imm
  case addu | and | nor | or | slt | sltu | subu => exact rWord_eq _ rs rt rd _ _

/-! ## `lui` and the shifts by a constant (R126, R134, R135, R177) -/

theorem writesGpr_lui (rt : RegNum) (imm : Half) : WritesGpr (.lui rt imm) rt fun _ => imm ++ 0#16 :=
  writesGpr_of_setX (fun _ => rfl) fun _ => rfl

theorem writesGpr_sll (rt rd : RegNum) (shamt : BitVec 5) :
    WritesGpr (.sll rt rd shamt) rd fun s => BitVec.ofNat 32 ((s.x rt).toNat * 2 ^ shamt.toNat) :=
  writesGpr_of_setX (fun _ => rfl) fun s => shiftLeft_eq_ofNat (s.x rt) shamt.toNat

theorem writesGpr_srl (rt rd : RegNum) (shamt : BitVec 5) :
    WritesGpr (.srl rt rd shamt) rd fun s => BitVec.ofNat 32 ((s.x rt).toNat / 2 ^ shamt.toNat) :=
  writesGpr_of_setX (fun _ => rfl) fun s => ushiftRight_eq_ofNat (s.x rt) shamt.toNat

theorem writesGpr_sra (rt rd : RegNum) (shamt : BitVec 5) :
    WritesGpr (.sra rt rd shamt) rd fun s => BitVec.ofInt 32 ((s.x rt).toInt / 2 ^ shamt.toNat) :=
  writesGpr_of_setX (fun _ => rfl) fun s => sshiftRight_eq_ofInt (s.x rt) shamt.toNat

/-- Settles O7: as for O6, `lui` in format I and the shifts in format R, each with a zero `rs` field. -/
theorem luiAndShifts : Obligations.LuiAndShifts := by
  intro rt rd shamt imm
  refine ⟨⟨?lui, writesGpr_lui rt imm⟩, ⟨?sll, writesGpr_sll rt rd shamt⟩, ⟨?srl, writesGpr_srl rt rd shamt⟩,
    ⟨?sra, writesGpr_sra rt rd shamt⟩⟩
  case lui => exact iWord_eq _ _ rt imm
  case sll | srl | sra => exact rWord_eq _ _ rt rd shamt _

end Sys2Proof.Machine
end

section
/-! PROOFS. The multiplies and the moves from `hi` and `lo`: `Obligations.Multiply` (O26) and `Obligations.HiLoReads` (O28). -/

namespace Sys2Proof.Machine

/-! ## A product in `{hi, lo}` (R172, R173) -/

theorem changes_setHiLo (s : State) (h l : Word) : Changes { hi := true, lo := true } s (s.setHiLo h l) :=
  { Changes.refl { hi := true, lo := true } s with
    hi := fun unnamed => nomatch unnamed
    lo := fun unnamed => nomatch unnamed }

theorem setProduct_hi_append_lo (s : State) (p : Double) : (s.setProduct p).hi ++ (s.setProduct p).lo = p :=
  halves_append p

/-- What an instruction leaves in `{hi, lo}`, read back as one double, is the product it wrote there. -/
theorem completes_of_setProduct {i : Instr} {s : State} {p : Double} {result : Double → Prop}
    (hx : exec i s = done (s.setProduct p)) (hr : result p) :
    Completes i s { hi := true, lo := true } fun t => result (t.hi ++ t.lo) :=
  completes_of hx ((congrArg result (setProduct_hi_append_lo s p)).mpr hr) (changes_setHiLo s _ _) ⟨rfl, rfl, rfl⟩ rfl

theorem toNat_append_word (h l : Word) : (h ++ l).toNat = h.toNat * 2 ^ 32 + l.toNat := by
  rw [BitVec.toNat_append, ← Nat.shiftLeft_add_eq_or_of_lt l.isLt, Nat.shiftLeft_eq]

/-- The unsigned product of two words fits in 64 bits: `multu` drops nothing. -/
theorem toNat_ofNat_mul (a b : Word) : (BitVec.ofNat 64 (a.toNat * b.toNat)).toNat = a.toNat * b.toNat := by
  have small : a.toNat * b.toNat < 2 ^ 64 := (Nat.mul_lt_mul'' a.isLt b.isLt).trans_eq (by norm_num)
  rw [BitVec.toNat_ofNat, Nat.mod_eq_of_lt small]

theorem completes_mult (rs rt : RegNum) (s : State) :
    Completes (.mult rs rt) s { hi := true, lo := true } fun t =>
      (t.hi ++ t.lo : BitVec 64) = BitVec.ofInt 64 ((s.x rs).toInt * (s.x rt).toInt) :=
  completes_of_setProduct (result := (· = BitVec.ofInt 64 ((s.x rs).toInt * (s.x rt).toInt))) rfl rfl

theorem completes_multu (rs rt : RegNum) (s : State) :
    Completes (.multu rs rt) s { hi := true, lo := true } fun t =>
      t.hi.toNat * 2 ^ 32 + t.lo.toNat = (s.x rs).toNat * (s.x rt).toNat := by
  simp only [← toNat_append_word]
  exact completes_of_setProduct (result := (·.toNat = (s.x rs).toNat * (s.x rt).toNat)) rfl (toNat_ofNat_mul _ _)

/-- Settles O26: each word is format R's field layout, each product its instruction's rule above. -/
theorem multiply : Obligations.Multiply := fun rs rt s =>
  ⟨rWord_eq _ rs rt _ _ _, rWord_eq _ rs rt _ _ _, completes_mult rs rt s, completes_multu rs rt s⟩

/-! ## Reading `hi` and `lo` (R174, R175) -/

theorem writesGpr_mfhi (rd : RegNum) : WritesGpr (.mfhi rd) rd fun s => s.hi :=
  writesGpr_of_setX (fun _ => rfl) fun _ => rfl

theorem writesGpr_mflo (rd : RegNum) : WritesGpr (.mflo rd) rd fun s => s.lo :=
  writesGpr_of_setX (fun _ => rfl) fun _ => rfl

/-- Settles O28: as for O26, each move one write of `rd`. -/
theorem hiLoReads : Obligations.HiLoReads := fun rd =>
  ⟨⟨rWord_eq _ _ _ rd _ _, writesGpr_mfhi rd⟩, ⟨rWord_eq _ _ _ rd _ _, writesGpr_mflo rd⟩⟩

end Sys2Proof.Machine
end

section
/-! PROOFS. The encoding: the decoder and the encoder are inverse (`Obligations.DecodeEncode`, O2, and `Obligations.EncodeDecode`,
O3), the spec's example words (O4), the reserved words (O5) and the derived immediates (O1). Each proof goes by the columns of
R100: a word's opcode names its column, and the column is one match on `funct` or on the opcode itself. -/

namespace Sys2Proof

/-! ## The columns of R100 -/

theorem decode_of_special {w : Word} (hop : opField w = 0x00) : decode w = decodeSpecial w := if_pos hop

theorem decode_of_cop1 {w : Word} (hop : opField w = 0x11) : decode w = decodeCop1 w := by simp [decode, hop]

theorem decode_of_single {w : Word} (hop : opField w = 0x11) (hfmt : fmtField w = 0x10) : decode w = decodeSingle w := by
  rw [decode_of_cop1 hop, decodeCop1, if_pos hfmt]

theorem decode_of_double {w : Word} (hop : opField w = 0x11) (hfmt : fmtField w = 0x11) : decode w = decodeDouble w := by
  rw [decode_of_cop1 hop]; simp [decodeCop1, hfmt]

theorem decode_of_fpBranch {w : Word} (hop : opField w = 0x11) (hfmt : fmtField w = 0x08) :
    decode w = decodeFpBranch w := by
  rw [decode_of_cop1 hop]; simp [decodeCop1, hfmt]

theorem decode_of_cop0 {w : Word} (hop : opField w = 0x10) : decode w = decodeCop0 w := by simp [decode, hop]

theorem decode_of_primary {w : Word} (h0 : opField w ≠ 0x00) (h1 : opField w ≠ 0x11) (h2 : opField w ≠ 0x10) :
    decode w = decodePrimary w := by simp only [decode, if_neg h0, if_neg h1, if_neg h2]

/-! ## Reading back an encoded instruction -/

/-- Settles O2: by the column of the instruction, where the fields of its word select its arm and its operands, and the fields
the arm wants zero are zero. -/
theorem decodeEncode : Obligations.DecodeEncode := by
  intro i
  cases i
  case add | addu | and | jr | nor | or | slt | sltu | sll | srl | sub | subu | div | divu | mfhi | mflo | mult | multu |
      sra | sllv | srlv | srav | jalr | movz | movn | sync | mthi | mtlo | xor | syscall | brk | tge | tgeu | tlt |
      tltu | teq | tne =>
    rw [encode, decode_of_special (by simp)]
    simp [decodeSpecial, strict_eq]
  case addS | subS | mulS | divS | cEqS | cLtS | cLeS | sqrtS | absS | movS | negS | roundWS | truncWS | ceilWS |
      floorWS | cvtSS | cvtDS | cvtWS | movzS | movnS | cFS | cUnS | cUeqS | cOltS | cUltS | cOleS | cUleS | cSfS |
      cNgleS | cSeqS | cNglS | cNgeS | cNgtS =>
    rw [encode, decode_of_single (by simp) (by simp)]
    simp [decodeSingle, strict_eq]
  case addD | subD | mulD | divD | cEqD | cLtD | cLeD | sqrtD | absD | movD | negD | roundWD | truncWD | ceilWD |
      floorWD | cvtSD | cvtDD | cvtWD | movzD | movnD | cFD | cUnD | cUeqD | cOltD | cUltD | cOleD | cUleD | cSfD |
      cNgleD | cSeqD | cNglD | cNgeD | cNgtD =>
    rw [encode, decode_of_double (by simp) (by simp)]
    simp [decodeDouble, strict_eq]
  case bc1t | bc1f =>
    rw [encode, decode_of_fpBranch (by simp) (by simp)]
    simp [decodeFpBranch]
  case mfc0 =>
    rw [encode, decode_of_cop0 (by simp)]
    simp [decodeCop0, strict_eq]
  case addi | addiu | andi | beq | bne | lbu | lhu | ll | lui | lw | ori | slti | sltiu | sb | sc | sh | sw | lwc1 |
      ldc1 | swc1 | sdc1 | blez | bgtz | xori | lb | lh | lwl | lwr | swl | swr | cache | lwc2 | ldc2 | pref | swc2 |
      sdc2 | j | jal =>
    rw [encode, decode_of_primary (by simp) (by simp) (by simp)]
    simp [decodePrimary, strict_eq]

/-! ## Encoding a decoded word -/

theorem rWord_eq_of_fields {w : Word} {op funct : BitVec 6} {rs rt rd : RegNum} {shamt : BitVec 5}
    (hop : opField w = op) (hfunct : functField w = funct) (hrs : rsField w = rs) (hrt : rtField w = rt)
    (hrd : rdField w = rd) (hshamt : shamtField w = shamt) : rWord op rs rt rd shamt funct = w := by
  subst hop hfunct hrs hrt hrd hshamt
  exact rWord_fields w

theorem iWord_eq_of_fields {w : Word} {op : BitVec 6} {rs rt : RegNum} {imm : Half}
    (hop : opField w = op) (hrs : rsField w = rs) (hrt : rtField w = rt) (himm : immField w = imm) :
    iWord op rs rt imm = w := by
  subst hop hrs hrt himm
  exact iWord_fields w

theorem jWord_eq_of_fields {w : Word} {op : BitVec 6} (hop : opField w = op) : jWord op (addrField w) = w := by
  subst hop
  exact jWord_fields w

theorem codeWord_eq_of_fields {w : Word} {funct : BitVec 6} (hop : opField w = 0) (hfunct : functField w = funct) :
    codeWord (codeField w) funct = w := by
  subst hfunct
  exact codeWord_fields hop

theorem trapWord_eq_of_fields {w : Word} {funct : BitVec 6} (hop : opField w = 0) (hfunct : functField w = funct) :
    trapWord (rsField w) (rtField w) (trapCodeField w) funct = w := by
  subst hfunct
  exact trapWord_fields hop

theorem encode_of_decodeSpecial {w : Word} {i : Instr} (hop : opField w = 0x00) (h : decodeSpecial w = .ok i) :
    encode i = w := by
  unfold decodeSpecial at h
  split at h
  all_goals
    rename_i hf
    simp only [strict_ok, Bool.and_eq_true, beq_iff_eq, Except.ok.injEq, reduceCtorEq] at h
  case h_11 | h_12 =>
    subst h
    exact codeWord_eq_of_fields hop hf
  case h_32 | h_33 | h_34 | h_35 | h_36 | h_37 =>
    subst h
    exact trapWord_eq_of_fields hop hf
  all_goals
    obtain ⟨hzero, rfl⟩ := h
    exact rWord_eq_of_fields hop hf (by simp [hzero]) (by simp [hzero]) (by simp [hzero]) (by simp [hzero])

theorem encode_of_decodeSingle {w : Word} {i : Instr} (hop : opField w = 0x11) (hfmt : fmtField w = 0x10)
    (h : decodeSingle w = .ok i) : encode i = w := by
  unfold decodeSingle at h
  split at h
  all_goals
    rename_i hf
    simp only [strict_ok, beq_iff_eq, Except.ok.injEq, reduceCtorEq] at h
  case h_1 | h_2 | h_3 | h_4 | h_13 | h_14 =>
    subst h
    exact rWord_eq_of_fields hop hf hfmt rfl rfl rfl
  all_goals
    obtain ⟨hzero, rfl⟩ := h
    exact rWord_eq_of_fields hop hf hfmt (by simp [hzero]) rfl (by simp [hzero])

theorem encode_of_decodeDouble {w : Word} {i : Instr} (hop : opField w = 0x11) (hfmt : fmtField w = 0x11)
    (h : decodeDouble w = .ok i) : encode i = w := by
  unfold decodeDouble at h
  split at h
  all_goals
    rename_i hf
    simp only [strict_ok, beq_iff_eq, Except.ok.injEq, reduceCtorEq] at h
  case h_1 | h_2 | h_3 | h_4 | h_13 | h_14 =>
    subst h
    exact rWord_eq_of_fields hop hf hfmt rfl rfl rfl
  all_goals
    obtain ⟨hzero, rfl⟩ := h
    exact rWord_eq_of_fields hop hf hfmt (by simp [hzero]) rfl (by simp [hzero])

theorem encode_of_decodeFpBranch {w : Word} {i : Instr} (hop : opField w = 0x11) (hfmt : fmtField w = 0x08)
    (h : decodeFpBranch w = .ok i) : encode i = w := by
  unfold decodeFpBranch at h
  split_ifs at h with ht hf
  · obtain rfl := Except.ok.inj h
    exact iWord_eq_of_fields hop hfmt ht rfl
  · obtain rfl := Except.ok.inj h
    exact iWord_eq_of_fields hop hfmt hf rfl

theorem encode_of_decodeCop0 {w : Word} {i : Instr} (hop : opField w = 0x10) (h : decodeCop0 w = .ok i) :
    encode i = w := by
  unfold decodeCop0 at h
  split_ifs at h with hz
  obtain ⟨hshamt, rfl⟩ := strict_ok.mp h
  exact rWord_eq_of_fields hop hz.2 hz.1 rfl rfl (by simpa using hshamt)

theorem encode_of_decodePrimary {w : Word} {i : Instr} (h : decodePrimary w = .ok i) : encode i = w := by
  unfold decodePrimary at h
  split at h
  all_goals
    rename_i hop
    simp only [strict_ok, beq_iff_eq, Except.ok.injEq, reduceCtorEq] at h
  case h_1 | h_2 =>
    subst h
    exact jWord_eq_of_fields hop
  case h_5 | h_6 | h_14 =>
    obtain ⟨hzero, rfl⟩ := h
    exact iWord_eq_of_fields hop (by simp [hzero]) (by simp [hzero]) rfl
  all_goals
    subst h
    exact iWord_eq_of_fields hop rfl rfl rfl

/-- Settles O3: in every column an arm keeps the fields it reads as operands and pins those it does not, so the word is again
the one of its fields. -/
theorem encodeDecode : Obligations.EncodeDecode := fun w i h => by
  unfold decode decodeCop1 at h
  split_ifs at h with hspecial hcop1 hsingle hdouble hbranch hcop0
  · exact encode_of_decodeSpecial hspecial h
  · exact encode_of_decodeSingle hcop1 hsingle h
  · exact encode_of_decodeDouble hcop1 hdouble h
  · exact encode_of_decodeFpBranch hcop1 hbranch h
  · exact encode_of_decodeCop0 hcop0 h
  · exact encode_of_decodePrimary h

/-! ## The example words -/

theorem decode_of_encode {w : Word} {i : Instr} (h : encode i = w) : decode w = .ok i := h ▸ decodeEncode i

/-- Settles O4: each word is the encoding of its instruction, and the decoder reads encodings back. -/
theorem exampleWords : Obligations.ExampleWords :=
  ⟨decode_of_encode (rWord_eq _ _ _ _ _ _), decode_of_encode (iWord_eq _ _ _ _), decode_of_encode (iWord_eq _ _ _ _),
    decode_of_encode (jWord_eq _ _), decode_of_encode (iWord_eq _ _ _ _), decode_of_encode (rWord_eq _ _ _ _ _ _),
    decode_of_encode (rWord_eq _ _ _ _ _ _), decode_of_encode (rWord_eq _ _ _ _ _ _),
    decode_of_encode (iWord_eq _ _ _ _), decode_of_encode (iWord_eq _ _ _ _), decode_of_encode (codeWord_eq _ _),
    decode_of_encode (trapWord_eq _ _ _ _)⟩

/-! ## The reserved words -/

theorem mem_of_toNat_mem {n : Nat} {v : BitVec n} {l : List Nat} (h : v.toNat ∈ l) : v ∈ l.map (BitVec.ofNat n) :=
  List.mem_map.mpr ⟨v.toNat, h, by simp⟩

theorem decodePrimary_blank {w : Word} (h : (opField w).toNat ∈ [0x01, 0x12, 0x13, 0x14, 0x15, 0x16, 0x17, 0x18, 0x19,
    0x1A, 0x1B, 0x1C, 0x1D, 0x1E, 0x1F, 0x27, 0x2C, 0x2D, 0x34, 0x37, 0x3B, 0x3C, 0x3F]) :
    decodePrimary w = .error .blankOpcode := by
  have hop := mem_of_toNat_mem h
  generalize e : opField w = op at hop
  fin_cases hop <;> simp [decodePrimary, e]

theorem decodeSpecial_blank {w : Word} (h : (functField w).toNat ∈ [0x01, 0x05, 0x0E, 0x14, 0x15, 0x16, 0x17, 0x1C, 0x1D,
    0x1E, 0x1F, 0x28, 0x29, 0x2C, 0x2D, 0x2E, 0x2F, 0x35, 0x37, 0x38, 0x39, 0x3A, 0x3B, 0x3C, 0x3D, 0x3E, 0x3F]) :
    decodeSpecial w = .error .blankFunct := by
  have hf := mem_of_toNat_mem h
  generalize e : functField w = funct at hf
  fin_cases hf <;> simp [decodeSpecial, e]

/-- The blank cells of column (2), the same in both formats. -/
theorem decodeFp_blank {w : Word} (h : (functField w).toNat ∈ [0x08, 0x09, 0x0A, 0x0B, 0x10, 0x11, 0x14, 0x15, 0x16, 0x17,
    0x18, 0x19, 0x1A, 0x1B, 0x1C, 0x1D, 0x1E, 0x1F, 0x22, 0x23, 0x25, 0x26, 0x27, 0x28, 0x29, 0x2A, 0x2B, 0x2C, 0x2D,
    0x2E, 0x2F]) : decodeSingle w = .error .blankFpFunct ∧ decodeDouble w = .error .blankFpFunct := by
  have hf := mem_of_toNat_mem h
  generalize e : functField w = funct at hf
  fin_cases hf <;> simp [decodeSingle, decodeDouble, e]

/-- The unary operations of column (2) use no `ft`. -/
theorem decodeFp_unused_ft {w : Word} (h : (functField w).toNat ∈ [0x04, 0x05, 0x06, 0x07, 0x0C, 0x0D, 0x0E, 0x0F, 0x20,
    0x21, 0x24]) (hft : ftField w ≠ 0) :
    decodeSingle w = .error .unusedField ∧ decodeDouble w = .error .unusedField := by
  have hf := mem_of_toNat_mem h
  generalize e : functField w = funct at hf
  fin_cases hf <;> simpa [decodeSingle, decodeDouble, e, strict_eq] using hft

/-- The compares, with funct 30hex or more, use no `fd`. -/
theorem decodeFp_unused_fd {w : Word} (h : 0x30 ≤ (functField w).toNat) (hfd : fdField w ≠ 0) :
    decodeSingle w = .error .unusedField ∧ decodeDouble w = .error .unusedField := by
  have hf : functField w ∈ (List.range' 0x30 16).map (BitVec.ofNat 6) := by
    refine mem_of_toNat_mem ?_
    rw [List.mem_range'_1]
    exact ⟨h, (functField w).isLt⟩
  generalize e : functField w = funct at hf
  fin_cases hf <;> simpa [decodeSingle, decodeDouble, e, strict_eq] using hfd

/-- A floating-point word that both formats reject alike. -/
theorem decode_cop1_error {w : Word} {e : DecodeError} (hop : (opField w).toNat = 0x11)
    (hfmt : (fmtField w).toNat = 0x10 ∨ (fmtField w).toNat = 0x11)
    (h : decodeSingle w = .error e ∧ decodeDouble w = .error e) : decode w = .error e := by
  obtain ⟨hsingle, hdouble⟩ := h
  have hop : opField w = 0x11 := BitVec.eq_of_toNat_eq hop
  obtain hfmt | hfmt := hfmt
  · rw [decode_of_single hop (BitVec.eq_of_toNat_eq hfmt), hsingle]
  · rw [decode_of_double hop (BitVec.eq_of_toNat_eq hfmt), hdouble]

/-- The rows of R105 for opcode 0. -/
theorem decodeSpecial_unused (w : Word) :
    let funct := (functField w).toNat
    let unused (fields : Prop) : Prop := fields → decodeSpecial w = .error .unusedField
    (funct ∈ [0x20, 0x21, 0x22, 0x23, 0x24, 0x25, 0x26, 0x27, 0x2A, 0x2B, 0x04, 0x06, 0x07, 0x0A, 0x0B] →
      unused (shamtField w ≠ 0)) ∧
    (funct ∈ [0x00, 0x02, 0x03] → unused (rsField w ≠ 0)) ∧
    (funct = 0x08 → unused (rtField w ≠ 0 ∨ rdField w ≠ 0 ∨ shamtField w ≠ 0)) ∧
    (funct = 0x09 → unused (rtField w ≠ 0 ∨ shamtField w ≠ 0)) ∧
    (funct ∈ [0x10, 0x12] → unused (rsField w ≠ 0 ∨ rtField w ≠ 0 ∨ shamtField w ≠ 0)) ∧
    (funct ∈ [0x11, 0x13] → unused (rtField w ≠ 0 ∨ rdField w ≠ 0 ∨ shamtField w ≠ 0)) ∧
    (funct ∈ [0x18, 0x19, 0x1A, 0x1B] → unused (rdField w ≠ 0 ∨ shamtField w ≠ 0)) ∧
    (funct = 0x0F → unused (rsField w ≠ 0 ∨ rtField w ≠ 0 ∨ rdField w ≠ 0 ∨ shamtField w ≠ 0)) := by
  have column (l : List Nat) (fields : Prop)
      (h : ∀ f ∈ l.map (BitVec.ofNat 6), functField w = f → fields → decodeSpecial w = .error .unusedField)
      (hf : (functField w).toNat ∈ l) (hz : fields) : decodeSpecial w = .error .unusedField :=
    h _ (mem_of_toNat_mem hf) rfl hz
  simp only [← List.mem_singleton (b := (_ : Nat))]
  refine ⟨column _ _ ?_, column _ _ ?_, column _ _ ?_, column _ _ ?_, column _ _ ?_, column _ _ ?_, column _ _ ?_,
    column _ _ ?_⟩
  all_goals
    clear column
    intro f hf e hz
    fin_cases hf
  all_goals
    simp only [decodeSpecial, e, strict_eq]
    refine if_neg ?_
    simp only [Bool.and_eq_true, beq_iff_eq]
    tauto

/-- Settles O5: the opcode, then `fmt`, give the column; each column answers its blank cells and its rows of R105 by name; and
what the decoder rejects is no encoding, for it reads every encoding back. -/
theorem reservedWords : Obligations.ReservedWords := by
  intro w funct unused
  have special (e : DecodeError) (hop : (opField w).toNat = 0) (h : decodeSpecial w = .error e) : decode w = .error e :=
    (decode_of_special (BitVec.eq_of_toNat_eq hop)).trans h
  obtain ⟨hshamt, hrs, hjr, hjalr, hmf, hmt, hmul, hsync⟩ := decodeSpecial_unused w
  refine ⟨?blankOpcode, ?blankFunct, ?blankFpFunct, ?reservedFmt, ?reservedFt, ?reservedCop0, ?unusedSpecial, ?unusedLui,
    ?unusedBranch, ?unusedCop0, ?unusedFp, ?noEncoding⟩
  case blankOpcode =>
    intro h
    have apart {v : BitVec 6} (hv : v.toNat ∉ _) : opField w ≠ v := fun e => hv (e ▸ h)
    rw [decode_of_primary (apart (by decide)) (apart (by decide)) (apart (by decide)), decodePrimary_blank h]
  case blankFunct => exact fun hop h => special _ hop (decodeSpecial_blank h)
  case blankFpFunct => exact fun hop hfmt h => decode_cop1_error hop hfmt (decodeFp_blank h)
  case reservedFmt =>
    intro hop h
    have apart {v : BitVec 5} (hv : v.toNat ∈ _) : fmtField w ≠ v := fun e => h (e ▸ hv)
    rw [decode_of_cop1 (BitVec.eq_of_toNat_eq hop), decodeCop1, if_neg (apart (by decide)), if_neg (apart (by decide)),
      if_neg (apart (by decide))]
  case reservedFt =>
    intro hop hfmt h
    have apart {v : RegNum} (hv : v.toNat < 2) : ftField w ≠ v := fun e => absurd (e ▸ h) (by omega)
    rw [decode_of_fpBranch (BitVec.eq_of_toNat_eq hop) (BitVec.eq_of_toNat_eq hfmt), decodeFpBranch,
      if_neg (apart (by decide)), if_neg (apart (by decide))]
  case reservedCop0 =>
    intro hop h
    rw [decode_of_cop0 (BitVec.eq_of_toNat_eq hop), decodeCop0, if_neg]
    rintro ⟨hrs, hfunct⟩
    simp [hrs, hfunct] at h
  case unusedSpecial =>
    exact fun hop => ⟨fun hf hz => special _ hop (hshamt hf hz), fun hf hz => special _ hop (hrs hf hz),
      fun hf hz => special _ hop (hjr hf hz), fun hf hz => special _ hop (hjalr hf hz),
      fun hf hz => special _ hop (hmf hf hz), fun hf hz => special _ hop (hmt hf hz),
      fun hf hz => special _ hop (hmul hf hz), fun hf hz => special _ hop (hsync hf hz)⟩
  case unusedLui =>
    intro h hz
    have hop : opField w = 0x0F := BitVec.eq_of_toNat_eq h
    rw [decode_of_primary (by simp [hop]) (by simp [hop]) (by simp [hop])]
    simpa [decodePrimary, hop, strict_eq] using hz
  case unusedBranch =>
    intro h hz
    have hop := mem_of_toNat_mem h
    generalize e : opField w = op at hop
    fin_cases hop
    all_goals
      rw [decode_of_primary (by simp [e]) (by simp [e]) (by simp [e])]
      simpa [decodePrimary, e, strict_eq] using hz
  case unusedCop0 =>
    intro hop hrs hfunct hz
    rw [decode_of_cop0 (BitVec.eq_of_toNat_eq hop), decodeCop0,
      if_pos ⟨BitVec.eq_of_toNat_eq hrs, BitVec.eq_of_toNat_eq hfunct⟩]
    simpa [strict_eq] using hz
  case unusedFp =>
    exact fun hop hfmt => ⟨fun hf hz => decode_cop1_error hop hfmt (decodeFp_unused_ft hf hz),
      fun hf hz => decode_cop1_error hop hfmt (decodeFp_unused_fd hf hz)⟩
  case noEncoding =>
    intro h i hi
    rw [decode_of_encode hi] at h
    cases h

end Sys2Proof

namespace Sys2Proof.Machine

/-! ## The derived immediates -/

/-- Sign extension, bit by bit. -/
theorem signExtend_eq_append {n k : Nat} (v : BitVec n) :
    v.signExtend (k + n) = (if v.getLsbD (n - 1) then BitVec.allOnes k else 0#k) ++ v := by
  apply BitVec.eq_of_getLsbD_eq
  intro i hi
  rw [BitVec.getLsbD_append, BitVec.getLsbD_signExtend, BitVec.msb_eq_getLsbD_last]
  by_cases low : i < n
  · simp [low, hi]
  · cases v.getLsbD (n - 1) <;> simp [low, hi, show i - n < k by omega]

theorem signExtImm_eq_append (imm : Half) :
    signExtImm imm = (if imm.getLsbD 15 then 0xFFFF#16 else 0#16) ++ imm := signExtend_eq_append (k := 16) imm

theorem toInt_half_bounds (imm : Half) : -32768 ≤ imm.toInt ∧ imm.toInt ≤ 32767 := by
  have := imm.le_toInt
  have := imm.toInt_lt
  omega

theorem toInt_append_two_zeros (imm : Half) : (imm ++ 0#2).toInt = 4 * imm.toInt := by
  have value : (imm ++ 0#2).toNat = imm.toNat * 4 := by
    rw [BitVec.toNat_append]
    simp [Nat.shiftLeft_eq]
  rw [BitVec.toInt_eq_toNat_cond, BitVec.toInt_eq_toNat_cond, value]
  omega

theorem toInt_branchAddr (imm : Half) : (branchAddr imm).toInt = 4 * imm.toInt :=
  (BitVec.toInt_signExtend_of_le (by decide)).trans (toInt_append_two_zeros imm)

theorem branchAddr_eq_append (imm : Half) :
    branchAddr imm = (if imm.getLsbD 15 then 0x3FFF#14 else 0#14) ++ imm ++ 0#2 := by
  rw [BitVec.append_assoc]
  have msb : (imm ++ 0#2).getLsbD 17 = imm.getLsbD 15 := by rw [BitVec.getLsbD_append]; rfl
  rw [← msb]
  exact signExtend_eq_append (k := 14) (imm ++ 0#2)

/-- R97: a branch's target as an integer. -/
theorem branchTarget_eq_ofInt (pc : Word) (imm : Half) :
    branchTarget pc imm = BitVec.ofInt 32 (pc.toInt + 4 + 4 * imm.toInt) := by
  rw [BitVec.ofInt_add, BitVec.ofInt_add, BitVec.ofInt_toInt, ← toInt_branchAddr, BitVec.ofInt_toInt]
  rfl

theorem jumpAddr_toNat_mod (pc : Word) (addr : BitVec 26) : (jumpAddr pc addr).toNat % 4 = 0 := by
  rw [jumpAddr, BitVec.toNat_append]
  simp [Nat.shiftLeft_eq]

/-- The delay slot of an aligned jump lies in another 256 MiB region exactly when the jump is its region's last word. -/
theorem region_changes_iff {pc : Word} (h : pc.toNat % 4 = 0) :
    (pc + 4).extractLsb' 28 4 ≠ pc.extractLsb' 28 4 ↔ pc.extractLsb' 0 28 = 0xFFFFFFC#28 := by
  have := pc.isLt
  have four : (4 : Word).toNat = 4 := rfl
  simp only [ne_eq, ← BitVec.toNat_inj, BitVec.extractLsb'_toNat, BitVec.toNat_add, BitVec.toNat_ofNat, four,
    Nat.shiftRight_eq_div_pow]
  omega

/-- Settles O1: each form's bits and integer value, from the lemmas above. -/
theorem immediateForms : Obligations.ImmediateForms := by
  intro imm addr pc
  obtain ⟨low, high⟩ := toInt_half_bounds imm
  have small := imm.isLt
  have zero : (zeroExtImm imm).toNat = imm.toNat := BitVec.toNat_setWidth_of_le (by decide)
  exact ⟨⟨signExtImm_eq_append imm, toInt_signExtImm imm, low, high⟩,
    ⟨zeroExtImm_eq_append imm, zero, by omega, rfl⟩,
    ⟨branchAddr_eq_append imm, toInt_branchAddr imm, by omega, by omega, branchTarget_eq_ofInt pc imm⟩,
    rfl, jumpAddr_toNat_mod pc addr, region_changes_iff⟩

end Sys2Proof.Machine
end

section
/-! PROOFS. What holds of every step and every instruction: precise exceptions (`Obligations.PreciseExceptions`, O55), the
invariant (`Obligations.StepKeepsInvariant`, O54, and `Obligations.LaunchInvariant`, O53), the mode (`Obligations.ModeIsFixed`,
O56), text (`Obligations.TextIsImmutable`, O57), the target after a delay slot (`Obligations.TargetAfterDelaySlot`, O14) and the
decided memory map (`Obligations.MemoryMap`, O24). `exec_ends` says what an instruction can do; `stepped_of_step` says from it
what a step can do, and each statement is a case analysis of the one or the other. -/

namespace Sys2Proof.Machine

/-! ## Exceptions are precise -/

theorem Writes.straight {s u : State} (h : Writes s u) : Straight s u.advance :=
  ⟨h.npc, congrArg (· + 4) h.npc, rfl⟩

theorem Writes.branched {s u : State} (h : Writes s u) (target : Option Word) :
    Branched (target.getD (s.npc + 4)) s (u.transfer target) :=
  ⟨h.npc, congrArg (fun n => target.getD (n + 4)) h.npc, rfl⟩

/-- Settles O55: the three ends of an instruction that has a next state are the three cases of the statement. -/
theorem preciseExceptions : Obligations.PreciseExceptions := by
  intro i s t h
  have ends := exec_ends i s
  rw [h] at ends
  cases ends with
  | done u w =>
    exact .inl ⟨⟨w.cause, w.status, w.outcome⟩, .inl w.straight⟩
  | transfer u target w hd =>
    exact .inl ⟨⟨w.cause, w.status, w.outcome⟩, .inr ⟨hd, _, w.branched target⟩⟩
  | raise e info he =>
    obtain ⟨hfpe, hint, hibe, hri⟩ := he
    exact .inr ⟨e, info, hfpe, hint, hibe, hri, entered_takeException s e info⟩

/-! ## What a step can do -/

/-- The states a step from `s` can answer (R27): the run has ended, an exception is taken, or an instruction has completed. -/
inductive Stepped (s : State) : State → Prop where
  | finish : Stepped s s.sampleIrq.finish
  | exception (e : Exc) (info : Word) (he : e ≠ .fpe) : Stepped s (s.sampleIrq.takeException e info)
  | advance (u : State) (w : Writes s.sampleIrq u) : Stepped s u.advance
  | transfer (u : State) (target : Option Word) (w : Writes s.sampleIrq u) (hd : s.inDelay = false) :
      Stepped s (u.transfer target)

theorem stepped_of_exec {s t : State} {i : Instr} (h : exec i s.sampleIrq = .next t) : Stepped s t := by
  have ends := exec_ends i s.sampleIrq
  rw [h] at ends
  cases ends with
  | done u w => exact .advance u w
  | transfer u target w hd => exact .transfer u target w hd
  | raise e info he => exact .exception e info he.1

theorem running_of_step {s t : State} (h : step s = .next t) : s.outcome = .running := by
  by_contra stopped
  rw [step_after_end stopped] at h
  cases h

theorem stepped_of_step {s t : State} (h : step s = .next t) : Stepped s t := by
  obtain ⟨-, hs⟩ | ⟨-, -, hs⟩ | ⟨-, -, ⟨i, -, hs⟩ | ⟨e, info, -, he, hs⟩⟩ := step_cases (running_of_step h)
  all_goals rw [hs] at h
  · cases h; exact .finish
  · cases h; exact .exception _ _ (by decide)
  · exact stepped_of_exec h
  · cases h
    exact .exception e info (by obtain rfl | rfl | rfl := he <;> decide)

/-- Settles O14: in a delay slot nothing transfers, and of the other steps only a completed instruction leaves the machine
running. -/
theorem targetAfterDelaySlot : Obligations.TargetAfterDelaySlot := by
  intro s t hd h running
  cases stepped_of_step h with
  | finish => cases running
  | exception e info he => cases running
  | advance u w => exact ⟨w.straight.pc, w.straight.npc, rfl⟩
  | transfer u target w outside => exact absurd outside (by simp [hd])

/-! ## The mode of a run -/

/-- Exception entry sets EL, bit 1 of Status, and no other bit. -/
theorem getLsbD_or_two (status : Word) (n : Nat) : (status ||| 2#32).getLsbD n = (status.getLsbD n || decide (n = 1)) := by
  rw [BitVec.getLsbD_or, show (2#32 : Word) = BitVec.twoPow 32 1 from rfl, BitVec.getLsbD_twoPow]
  grind

theorem extractLsb'_im_or_two (status : Word) : (status ||| 2#32).extractLsb' 8 8 = status.extractLsb' 8 8 := by
  apply BitVec.eq_of_getLsbD_eq
  intro n _
  simp only [BitVec.getLsbD_extractLsb', getLsbD_or_two]
  simp [show 8 + n ≠ 1 by omega]

theorem takeException_mode (s : State) (e : Exc) (info : Word) :
    (s.takeException e info).um = s.um ∧ (s.takeException e info).im = s.im ∧ (s.takeException e info).ie = s.ie ∧
      (s.takeException e info).el = true := by
  refine ⟨?_, extractLsb'_im_or_two s.status, ?_, ?_⟩ <;>
    simp [State.um, State.ie, State.el, State.takeException]

/-- A state with the Status of `s` is in the mode of `s`. -/
theorem mode_of_status {s t : State} (h : t.status = s.status) :
    t.um = s.um ∧ t.im = s.im ∧ t.ie = s.ie ∧ (s.el = true → t.el = true) ∧
      (t.outcome = .running → t.kernelMode = s.kernelMode ∧ t.status = s.status) := by
  simp [State.um, State.im, State.ie, State.el, State.kernelMode, h]

/-- Settles O56: a step writes Status only by exception entry, which ends the run. -/
theorem modeIsFixed : Obligations.ModeIsFixed := by
  intro s t h
  cases stepped_of_step h with
  | finish => exact mode_of_status rfl
  | exception e info he =>
    obtain ⟨hum, him, hie, hel⟩ := takeException_mode s.sampleIrq e info
    exact ⟨hum, him, hie, fun _ => hel, fun running => nomatch running⟩
  | advance u w => exact mode_of_status w.status
  | transfer u target w hd => exact mode_of_status w.status

/-! ## Memory and its map -/

/-- Settles O24: of an address, each of the four regions of R73 asks two bounds. -/
theorem memoryMap : Obligations.MemoryMap := by
  intro a
  have := a.isLt
  simp [mapped, Config.memMap, Config.textFirst, Config.textLast, Config.dataFirst, Config.dataLast, Region.allows]
  omega

/-- Settles O57: only the writes of a completed instruction reach memory, where the map allows them, and the decided map allows
none in text or from 0x80000000 up. -/
theorem textIsImmutable : Obligations.TextIsImmutable := by
  intro s t h
  have frame : t.memMap = s.memMap ∧ ∀ a, t.mem.read a ≠ s.mem.read a → mapped s.memMap .write a = true := by
    cases stepped_of_step h with
    | finish => exact ⟨rfl, fun a changed => absurd rfl changed⟩
    | exception e info he => exact ⟨rfl, fun a changed => absurd rfl changed⟩
    | advance u w => exact ⟨w.memMap, w.bytes⟩
    | transfer u target w hd => exact ⟨w.memMap, w.bytes⟩
  obtain ⟨map, bytes⟩ := frame
  refine ⟨map, bytes, fun narrow a ha => ?_⟩
  by_contra changed
  have writable := (memoryMap a).2.1.mp (narrow .write a (bytes a changed))
  omega

/-! ## The invariant -/

theorem Exc.code_listed {e : Exc} (h : e ≠ .fpe) : e.code = 0 ∨ (4 ≤ e.code.toNat ∧ e.code.toNat ≤ 13) := by
  cases e with
  | fpe => exact absurd rfl h
  | _ => decide

theorem reserved_or_two {status : Word} (h : status &&& 0xFFFF00EC#32 = 0#32) :
    (status ||| 2#32) &&& 0xFFFF00EC#32 = 0#32 := by
  rw [BitVec.and_comm, BitVec.and_or_distrib_left, BitVec.and_comm, h]
  rfl

theorem State.Inv.sampleIrq {s : State} (h : s.Inv) (running : s.outcome = .running) : s.sampleIrq.Inv where
  memory := h.memory
  zero := h.zero
  cause := reserved_causeWithIp _ h.cause
  status := h.status
  straight := h.straight
  link := h.link
  faulted := fun _ _ _ _ e => nomatch running.symm.trans e
  codes := h.codes
  refused := h.refused

theorem State.Inv.finish {s : State} (h : s.Inv) : s.finish.Inv where
  memory := h.memory
  zero := h.zero
  cause := h.cause
  status := h.status
  straight := h.straight
  link := h.link
  faulted := fun _ _ _ _ e => nomatch e
  codes := fun _ _ _ _ e => nomatch e
  refused := fun _ e => nomatch e

theorem State.Inv.takeException {s : State} (h : s.Inv) {e : Exc} (he : e ≠ .fpe) (info : Word) :
    (s.takeException e info).Inv where
  memory := h.memory
  zero := h.zero
  cause := reserved_causeWith _ _ h.cause
  status := reserved_or_two h.status
  straight := h.straight
  link := fun e => nomatch e
  faulted := by
    intro code pc bd info' record
    cases record
    have entry := entered_takeException s e info
    exact ⟨entry.excCode, rfl, rfl, entry.bd, (takeException_mode s e info).2.2.2, rfl⟩
  codes := by
    intro code pc bd info' record
    cases record
    exact Exc.code_listed he
  refused := fun _ e => nomatch e

/-- The writes of a completed instruction keep every clause that the program counters have no part in. -/
theorem State.Inv.of_writes {s u t : State} (h : s.Inv) (running : s.outcome = .running) (w : Writes s u)
    (hmem : t.mem = u.mem) (hgpr : t.gpr = u.gpr) (hcause : t.cause = u.cause) (hstatus : t.status = u.status)
    (hllbit : t.llbit = u.llbit) (hlladdr : t.lladdr = u.lladdr) (houtcome : t.outcome = u.outcome)
    (hpcs : t.inDelay = false → t.npc = t.pc + 4) : t.Inv := by
  have goesOn : t.outcome = .running := houtcome.trans (w.outcome.trans running)
  constructor
  case memory => rw [hmem]; exact w.wf h.memory
  case zero => simp only [hgpr]; exact w.zero.trans h.zero
  case cause => rw [hcause, w.cause]; exact h.cause
  case status => rw [hstatus, w.status]; exact h.status
  case straight => exact hpcs
  case link =>
    intro held
    rw [hlladdr]
    obtain new | ⟨old, same⟩ := w.link (hllbit ▸ held)
    · exact new
    · rw [same]; exact h.link old
  case faulted => exact fun _ _ _ _ e => nomatch goesOn.symm.trans e
  case codes => exact fun _ _ _ _ e => nomatch goesOn.symm.trans e
  case refused => exact fun _ e => nomatch goesOn.symm.trans e

/-- Settles O54: sampling the lines keeps the invariant, and so does each thing a step can then do. -/
theorem stepKeepsInvariant : Obligations.StepKeepsInvariant := by
  intro s t inv h
  have running := running_of_step h
  have sampled := inv.sampleIrq running
  cases stepped_of_step h with
  | finish => exact sampled.finish
  | exception e info he => exact sampled.takeException he info
  | advance u w => exact sampled.of_writes running w rfl rfl rfl rfl rfl rfl rfl fun _ => rfl
  | transfer u target w hd => exact sampled.of_writes running w rfl rfl rfl rfl rfl rfl rfl fun e => nomatch e

/-- Settles O53: the launch state runs, with nothing reserved and no byte of memory listed. -/
theorem launchInvariant : Obligations.LaunchInvariant where
  memory := rfl
  zero := rfl
  cause := rfl
  status := rfl
  straight := fun _ => rfl
  link := fun e => nomatch e
  faulted := fun _ _ _ _ e => nomatch e
  codes := fun _ _ _ _ e => nomatch e
  refused := fun _ e => nomatch e

/-- Settles O52: the launch values of R45, read off `State.reset`. -/
theorem launchState : Obligations.LaunchState := by
  unfold Obligations.LaunchState
  decide

end Sys2Proof.Machine
end

section
/-! PROOFS. Registers that only a few instructions touch: `hi` and `lo` (`Obligations.HiLoPrivate`, O29) and `fpcond`
(`Obligations.FpcondPrivate`, O30). Both are one fact about every instruction, `exec_overwrite`: with other values in the
registers it neither reads nor writes, an instruction does all the same and leaves them there. -/

namespace Sys2Proof

/-- The multiplies, the divides and the four moves of `hi` and `lo` (R29). -/
def Instr.usesHiLo : Instr → Bool
  | .mult .. | .multu .. | .div .. | .divu .. | .mfhi .. | .mflo .. | .mthi .. | .mtlo .. => true
  | _ => false

/-- The branches on `fpcond` and the compares (R33). -/
def Instr.usesFpcond : Instr → Bool
  | .bc1t .. | .bc1f .. | .cEqS .. | .cEqD .. | .cLtS .. | .cLtD .. | .cLeS .. | .cLeD .. | .cFS .. | .cFD .. | .cUnS ..
  | .cUnD .. | .cUeqS .. | .cUeqD .. | .cOltS .. | .cOltD .. | .cUltS .. | .cUltD .. | .cOleS .. | .cOleD .. | .cUleS ..
  | .cUleD .. | .cSfS .. | .cSfD .. | .cNgleS .. | .cNgleD .. | .cSeqS .. | .cSeqD .. | .cNglS .. | .cNglD ..
  | .cNgeS .. | .cNgeD .. | .cNgtS .. | .cNgtD .. => true
  | _ => false

end Sys2Proof

namespace Sys2Proof.Machine

/-! ## Other values in `hi`, `lo` and `fpcond` -/

/-- The state with `hi`, `lo` and `fpcond` replaced; the identity leaves a register as it is. -/
def State.overwrite (H L : Word → Word) (B : Bool → Bool) (s : State) : State :=
  { s with hi := H s.hi, lo := L s.lo, fpcond := B s.fpcond }

section Overwrite

variable {H L : Word → Word} {B : Bool → Bool}

/-! ## The shared operations -/

theorem ite_eq_map {α β : Type} {f : α → β} {c : Prop} [Decidable c] {a b : α} {a' b' : β} (ha : a' = f a)
    (hb : b' = f b) : (if c then a' else b') = f (if c then a else b) := by
  subst ha hb
  split <;> rfl

theorem map_overwrite {α : Type} (r : Except Stop α) (g : α → State) :
    (r.map fun v => (g v).overwrite H L B) = (r.map g).map (State.overwrite H L B) := by cases r <;> rfl

theorem bind_overwrite {α : Type} (r : Except Stop α) {g g' : α → Except Stop State}
    (h : ∀ v, g' v = (g v).map (State.overwrite H L B)) : r.bind g' = (r.bind g).map (State.overwrite H L B) := by
  obtain rfl : g' = fun v => (g v).map (State.overwrite H L B) := funext h
  cases r <;> rfl

theorem done_overwrite {u u' : State} (h : u' = u.overwrite H L B) :
    done u' = onNext (State.overwrite H L B) (done u) := h ▸ rfl

theorem complete_overwrite (s : State) {r r' : Except Stop State} (h : r' = r.map (State.overwrite H L B)) :
    complete (s.overwrite H L B) r' = onNext (State.overwrite H L B) (complete s r) := by
  subst h
  obtain (e | r) | t := r <;> rfl

/-- What a check or a load lets through does not depend on these registers. -/
theorem complete_map_overwrite {α : Type} (s : State) (r : Except Stop α) (g : α → State) :
    complete (s.overwrite H L B) (r.map fun v => (g v).overwrite H L B) =
      onNext (State.overwrite H L B) (complete s (r.map g)) := complete_overwrite s (map_overwrite r g)

theorem transferTo_overwrite (target : Option Word) (u : State) :
    transferTo target (u.overwrite H L B) = onNext (State.overwrite H L B) (transferTo target u) := ite_eq_map rfl rfl

theorem trapIf_overwrite (condition : Bool) (word : Word) (s : State) :
    trapIf condition word (s.overwrite H L B) = onNext (State.overwrite H L B) (trapIf condition word s) :=
  ite_eq_map rfl rfl

theorem putSingle_overwrite (s : State) (fd : RegNum) (r : FpResult) :
    (s.overwrite H L B).putSingle fd r = (s.putSingle fd r).overwrite H L B := by cases r <;> rfl

theorem putDouble_overwrite (s : State) (fd : RegNum) (r : FpResult) :
    (s.overwrite H L B).putDouble fd r = (s.putDouble fd r).overwrite H L B := by cases r <;> rfl

theorem putInt_overwrite (s : State) (fd : RegNum) (r : Option Word) :
    (s.overwrite H L B).putInt fd r = (s.putInt fd r).overwrite H L B := by cases r <;> rfl

theorem withDoubles_overwrite (ns : List RegNum) (s : State) {u u' : State} (h : u' = u.overwrite H L B) :
    withDoubles ns (s.overwrite H L B) u' = onNext (State.overwrite H L B) (withDoubles ns s u) := by
  subst h
  exact complete_map_overwrite s (evenOnly ns) fun _ => u

theorem compareDouble_overwrite (cccc : BitVec 4) (ft fs : RegNum) (s : State) :
    compareDouble cccc ft fs (s.overwrite H L id) = onNext (State.overwrite H L id) (compareDouble cccc ft fs s) :=
  complete_map_overwrite s (evenOnly [ft, fs]) fun _ => s.putCond cccc (compareFp (double (s.d fs)) (double (s.d ft)))

theorem storeByte_overwrite (s : State) (a : Word) (v : Byte) :
    storeByte (s.overwrite H L B) a v = (storeByte s a v).map (State.overwrite H L B) :=
  map_overwrite (checkStore s a 1) fun _ => s.setMem (s.mem.write a v)

theorem storeHalf_overwrite (s : State) (a : Word) (v : Half) :
    storeHalf (s.overwrite H L B) a v = (storeHalf s a v).map (State.overwrite H L B) :=
  map_overwrite (checkStore s a 2) fun _ => s.setMem (s.mem.writeHalf a v)

theorem storeWord_overwrite (s : State) (a v : Word) :
    storeWord (s.overwrite H L B) a v = (storeWord s a v).map (State.overwrite H L B) :=
  map_overwrite (checkStore s a 4) fun _ => s.setMem (s.mem.writeWord a v)

theorem storePart_overwrite (merge : Nat → Word → Word → Word) (rt : RegNum) (a : Word) (s : State) :
    storePart merge rt a (s.overwrite H L B) = onNext (State.overwrite H L B) (storePart merge rt a s) :=
  complete_overwrite s (bind_overwrite (loadWord s (wordBase a)) fun _ => storeWord_overwrite s _ _)

theorem storeConditional_overwrite (rt : RegNum) (a : Word) (s : State) :
    storeConditional rt a (s.overwrite H L B) = (storeConditional rt a s).overwrite H L B :=
  ite_eq_map (ite_eq_map rfl rfl) rfl

/-! ## Every instruction -/

theorem exec_overwrite {i : Instr} (hiLo : i.usesHiLo = true → H = id ∧ L = id) (cond : i.usesFpcond = true → B = id)
    (s : State) : exec i (s.overwrite H L B) = onNext (State.overwrite H L B) (exec i s) := by
  cases i
  case addiu | addu | and | andi | lui | nor | or | ori | slt | slti | sltiu | sltu | sll | srl | subu | sra | xori | sllv |
      srlv | srav | xor | movS | pref | sync | syscall | brk | cache | lwc2 | ldc2 | swc2 | sdc2 | cvtSS | cvtDD =>
    rfl
  case add | addi | sub => exact ite_eq_map rfl rfl
  case beq | bne | j | jr | blez | bgtz => exact transferTo_overwrite _ _
  case jal => exact transferTo_overwrite _ (s.setX 31 (s.pc + 8))
  case jalr rs rd => exact ite_eq_map rfl (transferTo_overwrite _ (s.setX rd (s.pc + 8)))
  case movz | movn | movzS | movnS => exact done_overwrite (ite_eq_map rfl rfl)
  case tge | tgeu | tlt | tltu | teq | tne => exact trapIf_overwrite _ _ _
  case mfc0 rt rd => exact ite_eq_map (complete_map_overwrite s (controlRegister rd s) (s.setX rt)) rfl
  case lbu rs rt imm | lb rs rt imm => exact complete_map_overwrite s (loadByte s (s.ea rs imm)) fun v => s.setX rt _
  case lhu rs rt imm | lh rs rt imm => exact complete_map_overwrite s (loadHalf s (s.ea rs imm)) fun v => s.setX rt _
  case lw rs rt imm => exact complete_map_overwrite s (loadWord s (s.ea rs imm)) (s.setX rt)
  case ll rs rt imm =>
    exact complete_map_overwrite s (loadWord s (s.ea rs imm)) fun v => (s.setX rt v).reserve (s.ea rs imm)
  case lwc1 rs rt imm => exact complete_map_overwrite s (loadWord s (s.ea rs imm)) (s.setF rt)
  case lwl rs rt imm | lwr rs rt imm =>
    exact complete_map_overwrite s (loadWord s (wordBase (s.ea rs imm))) fun w => s.setX rt _
  case ldc1 rs rt imm =>
    exact complete_overwrite s (bind_overwrite (alignedLoad (s.ea rs imm) 8) fun _ =>
      bind_overwrite (evenOnly [rt]) fun _ => map_overwrite (mappedLoad s (s.ea rs imm) 8) fun _ => s.setD rt _)
  case sb => exact complete_overwrite s (storeByte_overwrite s _ _)
  case sh => exact complete_overwrite s (storeHalf_overwrite s _ _)
  case sw | swc1 => exact complete_overwrite s (storeWord_overwrite s _ _)
  case swl | swr => exact storePart_overwrite _ _ _ s
  case sdc1 rs rt imm =>
    exact complete_overwrite s (bind_overwrite (alignedStore (s.ea rs imm) 8) fun _ =>
      bind_overwrite (evenOnly [rt]) fun _ => map_overwrite (mappedStore s (s.ea rs imm) 8) fun _ =>
        s.setMem (s.mem.writeDouble (s.ea rs imm) (s.d rt)))
  case sc rs rt imm =>
    refine complete_overwrite s (bind_overwrite (checkStore s (s.ea rs imm) 4) fun _ => ?_)
    refine .trans ?_ (map_overwrite (sameReservation s (s.ea rs imm)) fun _ => storeConditional rt (s.ea rs imm) s)
    rw [← storeConditional_overwrite]
    rfl
  case addS | subS | mulS | divS | sqrtS | absS | negS => exact done_overwrite (putSingle_overwrite s _ _)
  case roundWS | truncWS | ceilWS | floorWS | cvtWS => exact done_overwrite (putInt_overwrite s _ _)
  case addD | subD | mulD | divD | sqrtD | absD | negD | cvtDS =>
    exact withDoubles_overwrite _ s (putDouble_overwrite s _ _)
  case roundWD | truncWD | ceilWD | floorWD | cvtWD => exact withDoubles_overwrite _ s (putInt_overwrite s _ _)
  case cvtSD => exact withDoubles_overwrite _ s (putSingle_overwrite s _ _)
  case movD => exact withDoubles_overwrite _ s rfl
  case movzD | movnD => exact withDoubles_overwrite _ s (ite_eq_map rfl rfl)
  case mult | multu | mfhi | mflo | mthi | mtlo =>
    obtain ⟨rfl, rfl⟩ := hiLo rfl
    rfl
  case div | divu =>
    obtain ⟨rfl, rfl⟩ := hiLo rfl
    exact done_overwrite (ite_eq_map rfl rfl)
  case bc1t | bc1f =>
    obtain rfl := cond rfl
    exact transferTo_overwrite _ _
  case cEqS | cLtS | cLeS | cFS | cUnS | cUeqS | cOltS | cUltS | cOleS | cUleS | cSfS | cNgleS | cSeqS | cNglS | cNgeS |
      cNgtS =>
    obtain rfl := cond rfl
    rfl
  case cEqD | cLtD | cLeD | cFD | cUnD | cUeqD | cOltD | cUltD | cOleD | cUleD | cSfD | cNgleD | cSeqD | cNglD | cNgeD |
      cNgtD =>
    obtain rfl := cond rfl
    exact compareDouble_overwrite _ _ _ s

end Overwrite

/-! ## `hi` and `lo` -/

/-- Settles O29: none of the other instructions uses `hi` or `lo`. -/
theorem hiLoPrivate : Obligations.HiLoPrivate := by
  intro i s h l hmul hmove
  have unused : i.usesHiLo = false := by
    cases i
    case mult rs rt | multu rs rt | div rs rt | divu rs rt => simpa using hmul rs rt
    case mfhi r | mflo r | mthi r | mtlo r => simpa using hmove r
    all_goals rfl
  exact exec_overwrite (i := i) (H := fun _ => h) (L := fun _ => l) (B := id)
    (fun used => absurd used (by simp [unused])) (fun _ => rfl) s

/-! ## `fpcond` -/

/-- The words of the instructions that use `fpcond`. -/
theorem encode_of_usesFpcond {i : Instr} (h : i.usesFpcond = true) :
    (opField (encode i) = 0x11 ∧ fmtField (encode i) = 0x08) ∨
    (opField (encode i) = 0x11 ∧ 0x30 ≤ (functField (encode i)).toNat ∧
      (fmtField (encode i) = 0x10 ∨ fmtField (encode i) = 0x11)) := by
  cases i
  case bc1t | bc1f => left; simp [encode]
  case cEqS | cLtS | cLeS | cFS | cUnS | cUeqS | cOltS | cUltS | cOleS | cUleS | cSfS | cNgleS | cSeqS | cNglS | cNgeS |
      cNgtS | cEqD | cLtD | cLeD | cFD | cUnD | cUeqD | cOltD | cUltD | cOleD | cUleD | cSfD | cNgleD | cSeqD | cNglD |
      cNgeD | cNgtD => right; simp [encode]
  all_goals cases h

/-- Settles O30: the words excluded are those of the instructions that use `fpcond`. -/
theorem fpcondPrivate : Obligations.FpcondPrivate := by
  intro i s b hbranch hcompare
  refine exec_overwrite (i := i) (H := id) (L := id) (B := fun _ => b) (fun _ => ⟨rfl, rfl⟩) (fun used => ?_) s
  obtain branch | compare := encode_of_usesFpcond used
  · exact absurd branch hbranch
  · exact absurd compare hcompare

end Sys2Proof.Machine
end

section
/-! PROOFS. What an instruction's word and state decide about its end: which registers it can change
(`Obligations.OnlyNamedRegistersChange`, O59) and when it can be refused (`Obligations.RefusalsOfWellFormed`, O58). Each is one
predicate of results, one rule for each shared operation, and one case analysis of the instructions. -/

namespace Sys2Proof

/-- The general register an instruction may write (R23). -/
def Instr.gprDests : Instr → List RegNum
  | .add _ _ rd | .addu _ _ rd | .and _ _ rd | .nor _ _ rd | .or _ _ rd | .slt _ _ rd | .sltu _ _ rd | .sll _ rd _
  | .srl _ rd _ | .sub _ _ rd | .subu _ _ rd | .mfhi rd | .mflo rd | .sra _ rd _ | .sllv _ _ rd | .srlv _ _ rd
  | .srav _ _ rd | .jalr _ rd | .movz _ _ rd | .movn _ _ rd | .xor _ _ rd => [rd]
  | .addi _ rt _ | .addiu _ rt _ | .andi _ rt _ | .lbu _ rt _ | .lhu _ rt _ | .ll _ rt _ | .lui rt _ | .lw _ rt _
  | .ori _ rt _ | .slti _ rt _ | .sltiu _ rt _ | .sc _ rt _ | .mfc0 rt _ | .xori _ rt _ | .lb _ rt _ | .lh _ rt _
  | .lwl _ rt _ | .lwr _ rt _ => [rt]
  | .jal _ => [31]
  | _ => []

/-- The floating-point registers an instruction may write: both halves where it writes a double (R31, R32). -/
def Instr.fprDests : Instr → List RegNum
  | .lwc1 _ rt _ => [rt]
  | .ldc1 _ rt _ => [rt, rt + 1]
  | .addS _ _ fd | .subS _ _ fd | .mulS _ _ fd | .divS _ _ fd | .sqrtS _ fd | .absS _ fd | .movS _ fd | .negS _ fd
  | .roundWS _ fd | .roundWD _ fd | .truncWS _ fd | .truncWD _ fd | .ceilWS _ fd | .ceilWD _ fd | .floorWS _ fd
  | .floorWD _ fd | .cvtSD _ fd | .cvtWS _ fd | .cvtWD _ fd | .movzS _ _ fd | .movnS _ _ fd => [fd]
  | .addD _ _ fd | .subD _ _ fd | .mulD _ _ fd | .divD _ _ fd | .sqrtD _ fd | .absD _ fd | .movD _ fd | .negD _ fd
  | .cvtDS _ fd | .movzD _ _ fd | .movnD _ _ fd => [fd, fd + 1]
  | _ => []

end Sys2Proof

namespace Sys2Proof.Machine

/-! ## The registers an instruction changes -/

/-- `u` has the registers of `s`, but for the general ones `gs` and the floating-point ones `fs`. -/
structure KeepsRegisters (gs fs : List RegNum) (s u : State) : Prop where
  gpr : ∀ g, g ∉ gs → u.x g = s.x g
  fpr : ∀ g, g ∉ fs → u.f g = s.f g

/-- The next state, if there is one, keeps the registers not named. -/
def ChangesOnly (gs fs : List RegNum) (s : State) : Result → Prop
  | .next t => KeepsRegisters gs fs s t
  | .fault _ => True
  | .refused _ => True

namespace KeepsRegisters

variable {gs fs : List RegNum} {s u : State}

theorem refl (gs fs : List RegNum) (s : State) : KeepsRegisters gs fs s s := ⟨fun _ _ => rfl, fun _ _ => rfl⟩

theorem setX (s : State) (r : RegNum) (v : Word) : KeepsRegisters [r] fs s (s.setX r v) :=
  ⟨(changes_setX s r v).gprs, fun _ _ => rfl⟩

theorem setF (s : State) (r : RegNum) (v : Word) : KeepsRegisters gs [r] s (s.setF r v) :=
  ⟨fun _ _ => rfl, (changes_setF s r v).fprs⟩

theorem setD (s : State) (n : RegNum) (v : Double) : KeepsRegisters gs [n, n + 1] s (s.setD n v) :=
  ⟨fun _ _ => rfl, (changes_setD s n v).fprs⟩

theorem putSingle (s : State) (fd : RegNum) (r : FpResult) : KeepsRegisters gs [fd] s (s.putSingle fd r) :=
  ⟨fun g _ => putSingle_x s fd r g, fun _ hg => putSingle_f_other s (by simpa using hg) r⟩

theorem putInt (s : State) (fd : RegNum) (r : Option Word) : KeepsRegisters gs [fd] s (s.putInt fd r) :=
  ⟨fun g _ => putInt_x s fd r g, fun _ hg => putInt_f_other s (by simpa using hg) r⟩

theorem putDouble (s : State) (fd : RegNum) (r : FpResult) : KeepsRegisters gs [fd, fd + 1] s (s.putDouble fd r) := by
  refine ⟨fun g _ => putDouble_x s fd r g, fun g hg => ?_⟩
  simp only [List.mem_cons, List.not_mem_nil, or_false, not_or] at hg
  exact putDouble_f_other s hg.1 (by simpa using hg.2) r

theorem ite {c : Prop} [Decidable c] {v : State} (hu : KeepsRegisters gs fs s u) (hv : KeepsRegisters gs fs s v) :
    KeepsRegisters gs fs s (if c then u else v) := by
  split <;> assumption

theorem storeConditional (rt : RegNum) (a : Word) (s : State) :
    KeepsRegisters [rt] fs s (storeConditional rt a s) :=
  ite (ite ⟨(setX s rt 0 (fs := fs)).gpr, fun _ _ => rfl⟩
    ⟨(setX (s.setMem (s.mem.writeWord a (s.x rt))) rt 1 (fs := fs)).gpr, fun _ _ => rfl⟩)
    ⟨(setX s rt 0 (fs := fs)).gpr, fun _ _ => rfl⟩

end KeepsRegisters

namespace ChangesOnly

variable {gs fs : List RegNum} {s u : State}

theorem done (h : KeepsRegisters gs fs s u) : ChangesOnly gs fs s (done u) := ⟨h.gpr, h.fpr⟩

theorem raise (s : State) (e : Exc) (info : Word) : ChangesOnly gs fs s (raise e info s) :=
  ⟨fun _ _ => rfl, fun _ _ => rfl⟩

theorem complete_bind {α : Type} (r : Except Stop α) {f : α → Except Stop State}
    (h : ∀ v, ChangesOnly gs fs s (complete s (f v))) : ChangesOnly gs fs s (complete s (r.bind f)) := by
  obtain (⟨e, info⟩ | q) | v := r
  · exact raise s e info
  · trivial
  · exact h v

theorem complete_map {α : Type} (r : Except Stop α) {f : α → State} (h : ∀ v, KeepsRegisters gs fs s (f v)) :
    ChangesOnly gs fs s (complete s (r.map f)) := by
  rw [map_eq_bind]
  exact complete_bind r fun v => done (h v)

theorem transferTo (target : Option Word) (h : KeepsRegisters gs fs s u) :
    ChangesOnly gs fs s (transferTo target u) := by
  unfold Machine.transferTo
  split
  · trivial
  · exact ⟨h.gpr, h.fpr⟩

theorem ite {c : Prop} [Decidable c] {a b : Result} (ha : ChangesOnly gs fs s a) (hb : ChangesOnly gs fs s b) :
    ChangesOnly gs fs s (if c then a else b) := by
  split <;> assumption

end ChangesOnly

/-- What any instruction can do to the register files. -/
theorem exec_changesOnly (i : Instr) (s : State) : ChangesOnly i.gprDests i.fprDests s (exec i s) := by
  have same := KeepsRegisters.refl i.gprDests i.fprDests s
  cases i
  case addiu | addu | and | andi | lui | nor | or | ori | slt | slti | sltiu | sltu | sll | srl | subu | sra | xori | sllv |
      srlv | srav | xor | mfhi | mflo => exact .done (.setX s _ _)
  case add | addi | sub => exact .ite (.raise s _ _) (.done (.setX s _ _))
  case movz | movn => exact .done (.ite (.setX s _ _) same)
  case mfc0 => exact .ite (.complete_map _ fun _ => .setX s _ _) (.raise s _ _)
  case mult | multu | mthi | mtlo | pref | sync => exact .done ⟨same.gpr, same.fpr⟩
  case div | divu => exact .done (.ite ⟨same.gpr, same.fpr⟩ ⟨same.gpr, same.fpr⟩)
  case beq | bne | j | jr | blez | bgtz | bc1t | bc1f => exact .transferTo _ same
  case jal => exact .transferTo _ (.setX s _ _)
  case jalr => exact .ite trivial (.transferTo _ (.setX s _ _))
  case tge | tgeu | tlt | tltu | teq | tne => exact .ite (.raise s _ _) (.done same)
  case syscall | brk => exact .raise s _ _
  case cache | lwc2 | ldc2 | swc2 | sdc2 | cvtSS | cvtDD => trivial
  case lbu | lhu | lw | lb | lh | lwl | lwr => exact .complete_map _ fun _ => .setX s _ _
  case ll => exact .complete_map _ fun v => ⟨(KeepsRegisters.setX s _ v (fs := [])).gpr, fun _ _ => rfl⟩
  case sb | sh | sw | swc1 => exact .complete_map _ fun _ => ⟨same.gpr, same.fpr⟩
  case swl | swr => exact .complete_bind _ fun _ => .complete_map _ fun _ => ⟨same.gpr, same.fpr⟩
  case sc => exact .complete_bind _ fun _ => .complete_map _ fun _ => .storeConditional _ _ s
  case lwc1 => exact .complete_map _ fun _ => .setF s _ _
  case ldc1 => exact .complete_bind _ fun _ => .complete_bind _ fun _ => .complete_map _ fun _ => .setD s _ _
  case sdc1 => exact .complete_bind _ fun _ => .complete_bind _ fun _ => .complete_map _ fun _ => ⟨same.gpr, same.fpr⟩
  case addS | subS | mulS | divS | sqrtS | absS | negS => exact .done (.putSingle s _ _)
  case roundWS | truncWS | ceilWS | floorWS | cvtWS => exact .done (.putInt s _ _)
  case movS => exact .done (.setF s _ _)
  case movzS | movnS => exact .done (.ite (.setF s _ _) same)
  case addD | subD | mulD | divD | sqrtD | absD | negD | cvtDS => exact .complete_map _ fun _ => .putDouble s _ _
  case roundWD | truncWD | ceilWD | floorWD | cvtWD => exact .complete_map _ fun _ => .putInt s _ _
  case cvtSD => exact .complete_map _ fun _ => .putSingle s _ _
  case movD => exact .complete_map _ fun _ => .setD s _ _
  case movzD | movnD => exact .complete_map _ fun _ => .ite (.setD s _ _) same
  case cEqS | cLtS | cLeS | cFS | cUnS | cUeqS | cOltS | cUltS | cOleS | cUleS | cSfS | cNgleS | cSeqS | cNglS | cNgeS |
      cNgtS => exact .done ⟨same.gpr, same.fpr⟩
  case cEqD | cLtD | cLeD | cFD | cUnD | cUeqD | cOltD | cUltD | cOleD | cUleD | cSfD | cNgleD | cSeqD | cNglD | cNgeD |
      cNgtD => exact .complete_map _ fun _ => ⟨same.gpr, same.fpr⟩

/-- The general register an instruction may write is the one its word names. -/
theorem encode_of_gprDests {i : Instr} {r : RegNum} (h : r ∈ i.gprDests) :
    (r = rtField (encode i) ∧ (opField (encode i)).toNat ∈ [0x08, 0x09, 0x0A, 0x0B, 0x0C, 0x0D, 0x0E, 0x0F, 0x10, 0x20, 0x21,
      0x22, 0x23, 0x24, 0x25, 0x26, 0x30, 0x38]) ∨
    (r = rdField (encode i) ∧ (opField (encode i)).toNat = 0 ∧ (functField (encode i)).toNat ∈ [0x00, 0x02, 0x03, 0x04, 0x06,
      0x07, 0x09, 0x0A, 0x0B, 0x10, 0x12, 0x20, 0x21, 0x22, 0x23, 0x24, 0x25, 0x26, 0x27, 0x2A, 0x2B]) ∨
    (r = 31 ∧ ∃ addr, i = .jal addr) := by
  cases i
  case addi | addiu | andi | lbu | lhu | ll | lui | lw | ori | slti | sltiu | sc | mfc0 | xori | lb | lh | lwl | lwr =>
    left
    obtain rfl := List.mem_singleton.mp h
    simp [encode]
  case add | addu | and | nor | or | slt | sltu | sll | srl | sub | subu | mfhi | mflo | sra | sllv | srlv | srav | jalr |
      movz | movn | xor =>
    right; left
    obtain rfl := List.mem_singleton.mp h
    simp [encode]
  case jal addr => exact .inr (.inr ⟨List.mem_singleton.mp h, addr, rfl⟩)
  all_goals exact absurd h List.not_mem_nil

/-- The floating-point registers an instruction may write are those its word names. -/
theorem encode_of_fprDests {i : Instr} {r : RegNum} (h : r ∈ i.fprDests) :
    let w := encode i
    let op := (opField w).toNat
    let fmt := (fmtField w).toNat
    let funct := (functField w).toNat
    (op = 0x31 ∧ r = rtField w) ∨ (op = 0x35 ∧ (r = rtField w ∨ r = rtField w + 1)) ∨
    (op = 0x11 ∧ (fmt = 0x10 ∨ fmt = 0x11) ∧ funct < 0x30 ∧
      (r = fdField w ∨ (r = fdField w + 1 ∧ ((fmt = 0x11 ∧ funct ∉ [0x0C, 0x0D, 0x0E, 0x0F, 0x20, 0x24]) ∨
        (fmt = 0x10 ∧ funct = 0x21))))) := by
  cases i
  case lwc1 =>
    left
    obtain rfl := List.mem_singleton.mp h
    simp [encode]
  case ldc1 =>
    right; left
    simpa [encode, Instr.fprDests] using h
  case addS | subS | mulS | divS | sqrtS | absS | movS | negS | roundWS | roundWD | truncWS | truncWD | ceilWS | ceilWD |
      floorWS | floorWD | cvtSD | cvtWS | cvtWD | movzS | movnS =>
    right; right
    obtain rfl := List.mem_singleton.mp h
    simp [encode]
  case addD | subD | mulD | divD | sqrtD | absD | movD | negD | cvtDS | movzD | movnD =>
    right; right
    simpa [encode, Instr.fprDests] using h
  all_goals exact absurd h List.not_mem_nil

/-- Settles O59: a register that is not among those an instruction may write keeps its value, and its word names those. -/
theorem onlyNamedRegistersChange : Obligations.OnlyNamedRegistersChange := by
  intro i s t r h
  have keeps := exec_changesOnly i s
  rw [h] at keeps
  exact ⟨fun changed => encode_of_gprDests (by_contra fun unnamed => changed (keeps.gpr r unnamed)),
    fun changed => encode_of_fprDests (by_contra fun unnamed => changed (keeps.fpr r unnamed))⟩

/-! ## When an instruction is refused -/

/-- The result is no refusal but for a reason `P` allows. -/
def RefusedOnlyIf (P : Refusal → Prop) : Result → Prop
  | .refused r => P r
  | .next _ => True
  | .fault _ => True

/-- The checks refuse for no reason but one `P` allows. -/
def StopsOnlyIf {α : Type} (P : Refusal → Prop) : Except Stop α → Prop
  | .error (.refuse r) => P r
  | .error (.raise _ _) => True
  | .ok _ => True

section Refusals

variable {α β : Type} {P : Refusal → Prop} {s : State}

theorem refusedOnlyIf_complete {r : Except Stop State} (h : StopsOnlyIf P r) : RefusedOnlyIf P (complete s r) := by
  obtain (⟨e, info⟩ | q) | t := r
  · trivial
  · exact h
  · trivial

theorem refusedOnlyIf_ite {c : Prop} [Decidable c] {a b : Result} (ha : RefusedOnlyIf P a) (hb : RefusedOnlyIf P b) :
    RefusedOnlyIf P (if c then a else b) := by
  split <;> assumption

theorem refusedOnlyIf_transferTo {target : Option Word} {u : State}
    (h : u.inDelay = true → P .controlTransferInDelaySlot) : RefusedOnlyIf P (transferTo target u) := by
  unfold transferTo
  split
  · next inside => exact h inside
  · trivial

theorem stopsOnlyIf_bind {r : Except Stop α} {f : α → Except Stop β} (hr : StopsOnlyIf P r)
    (hf : ∀ v, r = .ok v → StopsOnlyIf P (f v)) : StopsOnlyIf P (r.bind f) := by
  obtain (⟨e, info⟩ | q) | v := r
  · trivial
  · exact hr
  · exact hf v rfl

theorem stopsOnlyIf_map {r : Except Stop α} (f : α → β) (hr : StopsOnlyIf P r) : StopsOnlyIf P (r.map f) := by
  rw [map_eq_bind]
  exact stopsOnlyIf_bind hr fun _ _ => trivial

theorem stopsOnlyIf_checkLoad (a : Word) (n : Nat) : StopsOnlyIf P (checkLoad s a n) := by
  by_cases ha : a.toNat % n = 0
  · by_cases hm : Allowed s .read a n
    · rw [checkLoad_ok ha hm]; trivial
    · rw [checkLoad_unmapped ha hm]; trivial
  · rw [checkLoad_misaligned ha]; trivial

theorem stopsOnlyIf_checkStore {a : Word} (n : Nat) (h : inText a = true → P .storeIntoText) :
    StopsOnlyIf P (checkStore s a n) := by
  by_cases ha : a.toNat % n = 0
  · by_cases hm : Allowed s .write a n
    · rw [checkStore_ok ha hm]; trivial
    · rw [checkStore_unmapped ha hm]
      split
      · next text => exact h text
      · trivial
  · rw [checkStore_misaligned ha]; trivial

theorem stopsOnlyIf_mappedLoad (a : Word) (n : Nat) : StopsOnlyIf P (mappedLoad s a n) := by
  unfold mappedLoad
  split <;> trivial

theorem stopsOnlyIf_mappedStore {a : Word} (n : Nat) (h : inText a = true → P .storeIntoText) :
    StopsOnlyIf P (mappedStore s a n) := by
  unfold mappedStore
  split
  · trivial
  · split
    · next text => exact h text
    · trivial

theorem stopsOnlyIf_alignedLoad (a : Word) (n : Nat) : StopsOnlyIf P (alignedLoad a n) := by
  unfold alignedLoad
  split <;> trivial

theorem stopsOnlyIf_alignedStore (a : Word) (n : Nat) : StopsOnlyIf P (alignedStore a n) := by
  unfold alignedStore
  split <;> trivial

theorem stopsOnlyIf_evenOnly {ns : List RegNum} (h : ns.all evenReg = true) : StopsOnlyIf P (evenOnly ns) := by
  rw [evenOnly_ok h]; trivial

theorem stopsOnlyIf_sameReservation {a : Word} (h : s.llbit = true → s.lladdr ≠ a → P .scAddressMismatch) :
    StopsOnlyIf P (sameReservation s a) := by
  unfold sameReservation
  split
  · next other =>
    obtain ⟨held, other⟩ : s.llbit = true ∧ s.lladdr ≠ a := by simpa using other
    exact h held other
  · trivial

end Refusals

/-! ## The aligned word of an address (R236) -/

theorem wordBase_toNat (a : Word) : (wordBase a).toNat = a.toNat / 4 * 4 := by
  have fields : wordBase a = a.extractLsb' 2 30 ++ 0#2 := by
    apply BitVec.eq_of_getLsbD_eq
    intro i hi
    rw [BitVec.getLsbD_append]
    interval_cases i <;> simp [wordBase]
  rw [fields, BitVec.toNat_append, BitVec.extractLsb'_toNat, Nat.shiftRight_eq_div_pow, Nat.shiftLeft_eq]
  have := a.isLt
  simp
  omega

theorem inText_iff (a : Word) : inText a = true ↔ 0x00400000 ≤ a.toNat ∧ a.toNat ≤ 0x0FFFFFFF := by
  rw [inText, Bool.and_eq_true, decide_eq_true_eq, decide_eq_true_eq, Config.textFirst, Config.textLast]

/-- The text segment is made of whole words. -/
theorem inText_wordBase (a : Word) : inText (wordBase a) = inText a := by
  rw [Bool.eq_iff_iff, inText_iff, inText_iff, wordBase_toNat]
  omega

/-! ## The refusals of a well-formed instruction -/

/-- What the state must hold for a well-formed instruction to be refused (R82, R141, R159). -/
def RefusalGround (i : Instr) (s : State) (r : Refusal) : Prop :=
  (r = .controlTransferInDelaySlot ∧ s.inDelay = true ∧ i.isTransfer = true) ∨
  (r = .storeIntoText ∧ ∃ rs rt imm, 0x00400000 ≤ (s.ea rs imm).toNat ∧ (s.ea rs imm).toNat ≤ 0x0FFFFFFF ∧
    i ∈ [.sb rs rt imm, .sh rs rt imm, .sw rs rt imm, .sc rs rt imm, .swc1 rs rt imm, .sdc1 rs rt imm,
      .swl rs rt imm, .swr rs rt imm]) ∨
  (r = .scAddressMismatch ∧ s.llbit = true ∧ ∃ rs rt imm, i = .sc rs rt imm ∧ s.lladdr ≠ s.ea rs imm)

theorem refusalGround_transfer {i : Instr} (s : State) (h : i.isTransfer = true) (inside : s.inDelay = true) :
    RefusalGround i s .controlTransferInDelaySlot := .inl ⟨rfl, inside, h⟩

theorem refusalGround_store {i : Instr} {s : State} (rs rt : RegNum) (imm : Half)
    (h : i ∈ [Instr.sb rs rt imm, .sh rs rt imm, .sw rs rt imm, .sc rs rt imm, .swc1 rs rt imm, .sdc1 rs rt imm,
      .swl rs rt imm, .swr rs rt imm]) (text : inText (s.ea rs imm) = true) : RefusalGround i s .storeIntoText := by
  obtain ⟨first, last⟩ := (inText_iff _).mp text
  exact .inr (.inl ⟨rfl, rs, rt, imm, first, last, h⟩)

theorem refusalGround_storePart {i : Instr} {s : State} (rs rt : RegNum) (imm : Half)
    (h : i ∈ [Instr.sb rs rt imm, .sh rs rt imm, .sw rs rt imm, .sc rs rt imm, .swc1 rs rt imm, .sdc1 rs rt imm,
      .swl rs rt imm, .swr rs rt imm]) (text : inText (wordBase (s.ea rs imm)) = true) :
    RefusalGround i s .storeIntoText := refusalGround_store rs rt imm h (inText_wordBase _ ▸ text)

theorem wellFormed_iff (i : Instr) : i.wellFormed = true ↔
    i.hasEffect = true ∧ i.doubles.all evenReg = true ∧ i.linkApart = true ∧ i.controlKnown = true := by
  simp [Instr.wellFormed, Instr.doublesEven, and_assoc]

theorem exec_refusedOnlyIf {i : Instr} (h : i.wellFormed = true) (s : State) :
    RefusedOnlyIf (RefusalGround i s) (exec i s) := by
  obtain ⟨effect, even, apart, known⟩ := (wellFormed_iff i).mp h
  cases i
  case cache | lwc2 | ldc2 | swc2 | sdc2 | cvtSS | cvtDD => cases effect
  case addiu | addu | and | andi | lui | nor | or | ori | slt | slti | sltiu | sltu | sll | srl | subu | sra | xori | sllv |
      srlv | srav | xor | mfhi | mflo | movz | movn | mult | multu | mthi | mtlo | div | divu | pref | sync | syscall | brk |
      addS | subS | mulS | divS | sqrtS | absS | negS | roundWS | truncWS | ceilWS | floorWS | cvtWS | movS | movzS |
      movnS | cEqS | cLtS | cLeS | cFS | cUnS | cUeqS | cOltS | cUltS | cOleS | cUleS | cSfS | cNgleS | cSeqS | cNglS |
      cNgeS | cNgtS => trivial
  case add | addi | sub | tge | tgeu | tlt | tltu | teq | tne => exact refusedOnlyIf_ite trivial trivial
  case beq | bne | j | jal | jr | blez | bgtz | bc1t | bc1f =>
    exact refusedOnlyIf_transferTo (refusalGround_transfer s rfl)
  case jalr rs rd =>
    have apart : ¬ (rd = rs ∧ s.inDelay = false) := fun same => by simp [Instr.linkApart, same.1] at apart
    simp only [exec, execJalr, mapOnly_eq, if_neg apart]
    exact refusedOnlyIf_transferTo (refusalGround_transfer s rfl)
  case mfc0 rt rd =>
    refine refusedOnlyIf_ite (refusedOnlyIf_complete (stopsOnlyIf_map _ ?_)) trivial
    obtain rfl | rfl : rd = Config.crStatusNum ∨ rd = Config.crCauseNum := by simpa [Instr.controlKnown] using known
    all_goals trivial
  case lbu | lhu | lw | ll | lb | lh | lwl | lwr | lwc1 =>
    exact refusedOnlyIf_complete (stopsOnlyIf_map _ (stopsOnlyIf_map _ (stopsOnlyIf_checkLoad _ _)))
  case ldc1 =>
    exact refusedOnlyIf_complete (stopsOnlyIf_bind (stopsOnlyIf_alignedLoad _ _) fun _ _ =>
      stopsOnlyIf_bind (stopsOnlyIf_evenOnly even) fun _ _ => stopsOnlyIf_map _ (stopsOnlyIf_mappedLoad _ _))
  case sb rs rt imm | sh rs rt imm | sw rs rt imm | swc1 rs rt imm =>
    exact refusedOnlyIf_complete (stopsOnlyIf_map _ (stopsOnlyIf_checkStore _ (refusalGround_store rs rt imm (by simp))))
  case sdc1 rs rt imm =>
    exact refusedOnlyIf_complete (stopsOnlyIf_bind (stopsOnlyIf_alignedStore _ _) fun _ _ =>
      stopsOnlyIf_bind (stopsOnlyIf_evenOnly even) fun _ _ =>
        stopsOnlyIf_map _ (stopsOnlyIf_mappedStore _ (refusalGround_store rs rt imm (by simp))))
  case swl rs rt imm | swr rs rt imm =>
    exact refusedOnlyIf_complete (stopsOnlyIf_bind (stopsOnlyIf_map _ (stopsOnlyIf_checkLoad _ _)) fun _ _ =>
      stopsOnlyIf_map _ (stopsOnlyIf_checkStore _ (refusalGround_storePart rs rt imm (by simp))))
  case sc rs rt imm =>
    exact refusedOnlyIf_complete (stopsOnlyIf_bind
      (stopsOnlyIf_checkStore _ (refusalGround_store rs rt imm (by simp))) fun _ _ =>
        stopsOnlyIf_map _ (stopsOnlyIf_sameReservation fun held other =>
          .inr (.inr ⟨rfl, held, rs, rt, imm, rfl, other⟩)))
  case addD | subD | mulD | divD | sqrtD | absD | negD | cvtDS | roundWD | truncWD | ceilWD | floorWD | cvtWD | cvtSD |
      movD | movzD | movnD | cEqD | cLtD | cLeD | cFD | cUnD | cUeqD | cOltD | cUltD | cOleD | cUleD | cSfD | cNgleD |
      cSeqD | cNglD | cNgeD | cNgtD =>
    exact refusedOnlyIf_complete (stopsOnlyIf_map _ (stopsOnlyIf_evenOnly even))

/-- Settles O58: what the operand fields cannot refuse leaves the three grounds. -/
theorem refusalsOfWellFormed : Obligations.RefusalsOfWellFormed := by
  intro i s r h refused
  have ground := exec_refusedOnlyIf h s
  rw [refused] at ground
  exact ground

end Sys2Proof.Machine
end

section
/-! PROOFS. The integer instructions outside memory: signed overflow (`Obligations.SignedOverflow`, O8), the map-only operations
(`Obligations.MapOnlyInteger`, O9), division (`Obligations.Divide`, O27), the branches and jumps (`Obligations.Branches`, O10,
`Obligations.Jumps`, O11, `Obligations.MapOnlyTransfers`, O12, `Obligations.NoTransferInDelaySlot`, O13) and the system
instructions (`Obligations.ControlRegisterRead`, O31, `Obligations.SystemCallAndBreak`, O32, `Obligations.ConditionalTraps`, O33,
`Obligations.NoOperations`, O34, `Obligations.AlwaysRefused`, O35). -/

namespace Sys2Proof.Machine

/-! ## Completing with one write -/

theorem completes_of_setX {i : Instr} {s : State} {rd : RegNum} {v w : Word} (hx : exec i s = done (s.setX rd v))
    (hv : v = w) : Completes i s { gprs := [rd] } fun t => t.x rd = afterWrite rd w :=
  completes_of hx (by simp [setX_x_same, afterWrite, hv]) (changes_setX s rd v) ⟨rfl, rfl, rfl⟩ rfl

/-- A write that may be left out. -/
theorem completes_of_setX_ite {i : Instr} {s : State} {rd : RegNum} {v : Word} (c : Prop) [Decidable c]
    (hx : exec i s = done (if c then s.setX rd v else s)) :
    Completes i s { gprs := [rd] } fun t => t.x rd = if c then afterWrite rd v else s.x rd := by
  by_cases h : c
  · simp only [if_pos h] at hx ⊢
    exact completes_of_setX hx rfl
  · simp only [if_neg h] at hx ⊢
    exact completes_of hx rfl (Changes.refl _ s) ⟨rfl, rfl, rfl⟩ rfl

/-- An instruction that does nothing. -/
theorem completes_of_nothing {i : Instr} {s : State} (hx : exec i s = done s) : Completes i s {} fun _ => True :=
  completes_of hx trivial (Changes.refl _ s) ⟨rfl, rfl, rfl⟩ rfl

/-! ## Signed overflow (R120, R121, R136, R139) -/

theorem outOfRange_iff (n : Int) : outOfRange n = true ↔ ¬ (-2 ^ 31 ≤ n ∧ n ≤ 2 ^ 31 - 1) := by
  simp only [outOfRange, Bool.or_eq_true, decide_eq_true_eq]
  omega

/-- `n` is the exact result, `v` the word the model computes. -/
theorem completes_or_takes_ov {i : Instr} {s : State} {rd : RegNum} {n : Int} {v : Word}
    (hx : exec i s = if outOfRange n then raise .ov (encode i) s else done (s.setX rd v)) (hv : v = BitVec.ofInt 32 n) :
    ((-2 ^ 31 ≤ n ∧ n ≤ 2 ^ 31 - 1) →
      Completes i s { gprs := [rd] } fun t => t.x rd = afterWrite rd (BitVec.ofInt 32 n)) ∧
    (¬ (-2 ^ 31 ≤ n ∧ n ≤ 2 ^ 31 - 1) → Takes i s .ov (encode i)) := by
  refine ⟨fun fits => ?_, fun overflows => ?_⟩
  · rw [if_neg (by rw [outOfRange_iff]; exact not_not_intro fits)] at hx
    exact completes_of_setX hx hv
  · rw [if_pos ((outOfRange_iff n).mpr overflows)] at hx
    exact takes_of hx

theorem add_eq_ofInt (a b : Word) : a + b = BitVec.ofInt 32 (a.toInt + b.toInt) :=
  BitVec.eq_of_toInt_eq (by simp)

theorem addOverflows_iff (a b : Word) : addOverflows a b = true ↔ a.msb = b.msb ∧ (a + b).msb ≠ a.msb := by
  rw [addOverflows, outOfRange_iff]
  have := a.isLt
  have := b.isLt
  simp only [BitVec.msb_eq_decide, BitVec.toInt_eq_toNat_cond, BitVec.toNat_add, decide_eq_decide, ne_eq]
  omega

theorem subOverflows_iff (a b : Word) : subOverflows a b = true ↔ a.msb ≠ b.msb ∧ (a - b).msb = b.msb := by
  rw [subOverflows, outOfRange_iff]
  have := a.isLt
  have := b.isLt
  simp only [BitVec.msb_eq_decide, BitVec.toInt_eq_toNat_cond, BitVec.toNat_sub, decide_eq_decide, ne_eq]
  omega

/-- Settles O8: each of the three is one check of its exact result, and the check is the sign condition. -/
theorem signedOverflow : Obligations.SignedOverflow := by
  refine ⟨fun rs rt rd imm s => ?_, fun a b => ⟨addOverflows_iff a b, subOverflows_iff a b⟩⟩
  intro sum sumImm difference fits
  obtain ⟨add, addOv⟩ := completes_or_takes_ov (i := .add rs rt rd) (n := sum) rfl (add_eq_ofInt (s.x rs) (s.x rt))
  obtain ⟨sub, subOv⟩ := completes_or_takes_ov (i := .sub rs rt rd) (n := difference) rfl (sub_eq_ofInt (s.x rs) (s.x rt))
  have immediate : exec (.addi rs rt imm) s = if outOfRange sumImm then raise .ov (encode (.addi rs rt imm)) s
      else done (s.setX rt (s.x rs + signExtImm imm)) := by
    simp only [exec, execAddi, addOverflows, toInt_signExtImm, instrWord_eq, sumImm]
  obtain ⟨addi, addiOv⟩ := completes_or_takes_ov immediate (add_signExtImm (s.x rs) imm)
  exact ⟨add, addOv, addi, addiOv, sub, subOv⟩

/-! ## The map-only operations (R233, R248 to R250, R252, R253, R257 to R259) -/

theorem shiftCount_eq (v : Word) : shiftCount v = v.toNat % 32 := by
  rw [shiftCount, BitVec.extractLsb'_toNat]
  rfl

/-- Settles O9: each is one write of a register, the shifts by the low five bits as for O7. -/
theorem mapOnlyInteger : Obligations.MapOnlyInteger := by
  intro rs rt rd imm
  refine ⟨?xori, ?xor, ?sllv, ?srlv, ?srav, ?movz, ?movn, ?mthi, ?mtlo⟩
  case xori => exact writesGpr_of_setX (fun _ => rfl) fun s => congrArg (s.x rs ^^^ ·) (zeroExtImm_eq_append imm)
  case xor => exact writesGpr_of_setX (fun _ => rfl) fun _ => rfl
  case sllv => exact writesGpr_of_setX (fun _ => rfl) fun s => by rw [shiftLeft_eq_ofNat, shiftCount_eq]
  case srlv => exact writesGpr_of_setX (fun _ => rfl) fun s => by rw [ushiftRight_eq_ofNat, shiftCount_eq]
  case srav => exact writesGpr_of_setX (fun _ => rfl) fun s => by rw [sshiftRight_eq_ofInt, shiftCount_eq]
  case movz => exact fun s => completes_of_setX_ite (s.x rt = 0) rfl
  case movn =>
    intro s
    simp only [← ite_not (s.x rt = 0)]
    exact completes_of_setX_ite (s.x rt ≠ 0) rfl
  case mthi =>
    exact fun s => completes_of (u := s.setHi (s.x rs)) rfl rfl
      { Changes.refl _ s with hi := fun unnamed => nomatch unnamed } ⟨rfl, rfl, rfl⟩ rfl
  case mtlo =>
    exact fun s => completes_of (u := s.setLo (s.x rs)) rfl rfl
      { Changes.refl _ s with lo := fun unnamed => nomatch unnamed } ⟨rfl, rfl, rfl⟩ rfl

/-! ## Division (R170, R171, R178) -/

theorem completes_of_setHiLo {i : Instr} {s : State} {h l : Word} {result : State → Prop}
    (hx : exec i s = done (s.setHiLo h l)) (hr : result (s.setHiLo h l).advance) :
    Completes i s { hi := true, lo := true } result :=
  completes_of hx hr (changes_setHiLo s h l) ⟨rfl, rfl, rfl⟩ rfl

theorem completes_of_divByZero {i : Instr} {s : State} (hx : exec i s = done s.divByZero) :
    Completes i s { hi := true, lo := true, draws := true } fun _ => True :=
  completes_of hx trivial
    { Changes.refl { hi := true, lo := true, draws := true } s with
      hi := fun unnamed => nomatch unnamed
      lo := fun unnamed => nomatch unnamed
      draws := fun unnamed => nomatch unnamed } ⟨rfl, rfl, rfl⟩ rfl

/-- The rule's three conditions on the truncating quotient and remainder. -/
theorem truncating_division {n m : Int} (hm : m ≠ 0) :
    n = n.tdiv m * m + n.tmod m ∧ |n.tmod m| < |m| ∧ (n.tmod m = 0 ∨ (n.tmod m < 0 ↔ n < 0)) := by
  refine ⟨(Int.tdiv_mul_add_tmod n m).symm, ?_, ?_⟩
  · rw [Int.abs_eq_natAbs, Int.abs_eq_natAbs, Int.natAbs_tmod]
    exact_mod_cast Nat.mod_lt _ (Int.natAbs_pos.mpr hm)
  · rcases le_or_gt 0 n with hn | hn
    · have := Int.tmod_nonneg m hn
      omega
    · have := Int.tmod_nonneg m (a := -n) (by omega)
      rw [Int.neg_tmod] at this
      omega

/-- The one quotient of two words that does not fit is -2^31 / -1. -/
theorem tdiv_fits {n m : Int} (low : -2 ^ 31 ≤ n) (high : n < 2 ^ 31) (h : ¬ (n = -2 ^ 31 ∧ m = -1)) :
    -2 ^ 31 ≤ n.tdiv m ∧ n.tdiv m < 2 ^ 31 := by
  have size : (n.tdiv m).natAbs = n.natAbs / m.natAbs := Int.natAbs_tdiv n m
  by_cases unit : m = -1
  · subst unit
    rw [Int.tdiv_neg, Int.tdiv_one]
    omega
  by_cases one : m = 1
  · subst one
    rw [Int.tdiv_one]
    exact ⟨low, high⟩
  by_cases zero : m = 0
  · subst zero
    simp
  have half : n.natAbs / m.natAbs ≤ n.natAbs / 2 := Nat.div_le_div_left (by omega) (by omega)
  omega

theorem tmod_fits {n m : Int} (low : -2 ^ 31 ≤ n) (high : n < 2 ^ 31) :
    -2 ^ 31 ≤ n.tmod m ∧ n.tmod m < 2 ^ 31 := by
  have size : (n.tmod m).natAbs ≤ n.natAbs := Int.natAbs_tmod n m ▸ Nat.mod_le _ _
  rcases le_or_gt 0 n with hn | hn
  · have := Int.tmod_nonneg m hn
    omega
  · have := Int.tmod_nonneg m (a := -n) (by omega)
    rw [Int.neg_tmod] at this
    omega

/-- What `div` leaves in `lo` and `hi`, for any divisor that is not zero (R170). -/
theorem signed_division (a b : Word) (hb : b ≠ 0) :
    let q := BitVec.ofInt 32 (a.toInt.tdiv b.toInt)
    let r := BitVec.ofInt 32 (a.toInt.tmod b.toInt)
    if a.toInt = -2 ^ 31 ∧ b.toInt = -1 then q = 0x80000000 ∧ r = 0
    else a.toInt = q.toInt * b.toInt + r.toInt ∧ |r.toInt| < |b.toInt| ∧
      (r.toInt = 0 ∨ (r.toInt < 0 ↔ a.toInt < 0)) := by
  intro q r
  have low : -2 ^ 31 ≤ a.toInt := a.le_toInt
  have high : a.toInt < 2 ^ 31 := a.toInt_lt
  split_ifs with overflow
  · obtain ⟨ha, hm⟩ := overflow
    simp only [q, r, ha, hm]
    decide
  · obtain ⟨qlow, qhigh⟩ := tdiv_fits low high overflow
    obtain ⟨rlow, rhigh⟩ := tmod_fits (m := b.toInt) low high
    have hq : q.toInt = a.toInt.tdiv b.toInt := BitVec.toInt_ofInt_eq_self (by decide) qlow qhigh
    have hr : r.toInt = a.toInt.tmod b.toInt := BitVec.toInt_ofInt_eq_self (by decide) rlow rhigh
    rw [hq, hr]
    exact truncating_division fun zero => hb (BitVec.eq_of_toInt_eq zero)

/-- What `divu` leaves in `lo` and `hi`, for any divisor that is not zero (R171). -/
theorem unsigned_division (a b : Word) (hb : b ≠ 0) :
    a.toNat = (BitVec.ofNat 32 (a.toNat / b.toNat)).toNat * b.toNat + (BitVec.ofNat 32 (a.toNat % b.toNat)).toNat ∧
      (BitVec.ofNat 32 (a.toNat % b.toNat)).toNat < b.toNat := by
  have positive : 0 < b.toNat := Nat.pos_of_ne_zero fun zero => hb (BitVec.eq_of_toNat_eq zero)
  have quotient : a.toNat / b.toNat < 2 ^ 32 := (Nat.div_le_self _ _).trans_lt a.isLt
  have remainder : a.toNat % b.toNat < 2 ^ 32 := (Nat.mod_le _ _).trans_lt a.isLt
  rw [BitVec.toNat_ofNat, BitVec.toNat_ofNat, Nat.mod_eq_of_lt quotient, Nat.mod_eq_of_lt remainder]
  exact ⟨(Nat.div_add_mod' _ _).symm, Nat.mod_lt _ positive⟩

/-- Settles O27: one write of `hi` and `lo`, by the two laws of division above or, for a zero divisor, by two draws. -/
theorem divide : Obligations.Divide := by
  intro rs rt s n m
  refine ⟨fun nonzero => ⟨?_, ?_⟩, fun zero => ⟨?_, ?_⟩⟩
  · exact completes_of_setHiLo (congrArg done (if_neg nonzero)) (signed_division (s.x rs) (s.x rt) nonzero)
  · exact completes_of_setHiLo (congrArg done (if_neg nonzero)) (unsigned_division (s.x rs) (s.x rt) nonzero)
  · exact completes_of_divByZero (congrArg done (if_pos zero))
  · exact completes_of_divByZero (congrArg done (if_pos zero))

/-! ## Branches and jumps -/

/-- A branch or jump that leaves the registers as they are. -/
theorem transfers_of {i : Instr} {s u : State} {what : Footprint} {target : Option Word} {result : State → Prop}
    (hx : exec i s = transferTo target u) (outside : s.inDelay = false) (w : Writes s u) (hc : Changes what s u)
    (hr : result (u.transfer target)) : Transfers i s what (target.getD (s.npc + 4)) result :=
  ⟨u.transfer target, hx.trans (transferTo_outside (w.inDelay.trans outside) target), hr, hc.transfer target,
    ⟨w.cause, w.status, w.outcome⟩, ⟨w.npc, congrArg (fun n => target.getD (n + 4)) w.npc, rfl⟩⟩

theorem transfers_of_branchIf {i : Instr} {s : State} {taken : Bool} {imm : Half} (hx : exec i s = branchIf taken imm s)
    (outside : s.inDelay = false) :
    Transfers i s {} (if taken then BitVec.ofInt 32 (s.pc.toInt + 4 + 4 * imm.toInt) else s.npc + 4) fun _ => True := by
  rw [← branchTarget_eq_ofInt]
  have h := transfers_of (result := fun _ => True) hx outside (Writes.refl s) (Changes.refl {} s) trivial
  cases taken <;> exact h

/-- Settles O10: each is `branchIf` on its condition. -/
theorem branches : Obligations.Branches := by
  intro rs rt imm s outside target
  have differ : (s.x rs != s.x rt) = decide (s.x rs ≠ s.x rt) := by rw [Bool.eq_iff_iff]; simp
  exact ⟨transfers_of_branchIf rfl outside, transfers_of_branchIf (congrArg (branchIf · imm s) differ) outside,
    transfers_of_branchIf rfl outside, transfers_of_branchIf rfl outside⟩

/-- Settles O11: each is one transfer, `jal` after it has written register 31. -/
theorem jumps : Obligations.Jumps := fun _ _ s outside =>
  have w := Writes.refl s
  ⟨transfers_of (target := some _) rfl outside w (Changes.refl _ s) trivial,
    transfers_of (target := some _) rfl outside (w.setX 31 (s.pc + 8)) (changes_setX s 31 (s.pc + 8))
      (setX_x_same s 31 (s.pc + 8)),
    transfers_of (target := some _) rfl outside w (Changes.refl _ s) trivial⟩

/-- Settles O12: as for O10 and O11; in `jalr` the check for two equal registers stands before the transfer. -/
theorem mapOnlyTransfers : Obligations.MapOnlyTransfers := by
  intro rs rd imm s outside target
  refine ⟨transfers_of_branchIf rfl outside, transfers_of_branchIf rfl outside, fun apart => ?_, ?_⟩
  · exact transfers_of (target := some _) (if_neg fun same => apart same.1) outside ((Writes.refl s).setX rd (s.pc + 8))
      (changes_setX s rd (s.pc + 8)) (setX_x_same s rd (s.pc + 8))
  · exact if_pos ⟨rfl, outside⟩

/-- Settles O13: every one of the ten ends in `transferTo`, with the delay-slot flag of `s`. -/
theorem noTransferInDelaySlot : Obligations.NoTransferInDelaySlot := by
  intro i s inside h
  cases i
  case beq | bne | j | jr | bc1t | bc1f | blez | bgtz => exact transferTo_inside inside _
  case jal => exact transferTo_inside (s := s.setX 31 (s.pc + 8)) inside _
  case jalr rs rd =>
    refine (if_neg fun same => ?_).trans (transferTo_inside (s := s.setX rd (s.pc + 8)) inside _)
    simp [inside] at same
  all_goals cases h

/-! ## System instructions -/

theorem kernelMode_iff (s : State) : s.kernelMode = true ↔ s.um = false ∨ s.el = true := by
  simp [State.kernelMode]

/-- Settles O31: the mode decides between the control register and CpU, the register number between reading and refusing. -/
theorem controlRegisterRead : Obligations.ControlRegisterRead := by
  intro rt rd s kernel
  have inKernel (rd : RegNum) (h : kernel) :
      exec (.mfc0 rt rd) s = complete s ((controlRegister rd s).map fun v => s.setX rt v) :=
    if_pos ((kernelMode_iff s).mpr h)
  refine ⟨fun h => completes_of_setX (inKernel 12 h) rfl, fun h => completes_of_setX (inKernel 13 h) rfl, ?_, ?_⟩
  · intro h not12 not13
    have unknown : controlRegister rd s = .error (.refuse .unknownControlRegister) :=
      (if_neg not12).trans (if_neg not13)
    rw [inKernel rd h, unknown]
    rfl
  · exact fun h => takes_of (if_neg fun inKernelMode => h ((kernelMode_iff s).mp inKernelMode))

/-- Settles O32: both raise their exception and do nothing else. -/
theorem systemCallAndBreak : Obligations.SystemCallAndBreak := fun _ _ => ⟨takes_of rfl, takes_of rfl⟩

/-- `condition` is the rule's comparison, `c` the model's. -/
theorem traps_of_trapIf {i : Instr} {s : State} {c : Bool} {condition : Prop} (hx : exec i s = trapIf c (encode i) s)
    (hc : c = true ↔ condition) :
    (condition → Takes i s .tr (encode i)) ∧ (¬ condition → Completes i s {} fun _ => True) :=
  ⟨fun holds => takes_of (hx.trans (if_pos (hc.mpr holds))),
    fun fails => completes_of_nothing (hx.trans (if_neg (mt hc.mp fails)))⟩

/-- Settles O33: each is `trapIf` on its comparison. -/
theorem conditionalTraps : Obligations.ConditionalTraps := by
  intro rs rt code s traps
  refine ⟨traps_of_trapIf rfl ?tge, traps_of_trapIf rfl ?tgeu, traps_of_trapIf rfl ?tlt, traps_of_trapIf rfl ?tltu,
    traps_of_trapIf rfl ?teq, traps_of_trapIf rfl ?tne⟩
  case tge | tlt => simp [lessSigned]
  case tgeu | tltu => simp [lessUnsigned]
  case teq | tne => simp

/-- Settles O34: both complete with the state as it is. -/
theorem noOperations : Obligations.NoOperations := fun _ _ _ _ => ⟨completes_of_nothing rfl, completes_of_nothing rfl⟩

/-- Settles O35: the seven meanings are refusals. -/
theorem alwaysRefused : Obligations.AlwaysRefused := fun _ _ _ _ => ⟨rfl, rfl, rfl, rfl, rfl, rfl, rfl⟩

end Sys2Proof.Machine
end

section
/-! PROOFS. Memory by bytes: a word as its four bytes, most significant first, what each byte of a stored word reads, and the four
merges of the unaligned accesses (R238 to R241), byte by byte and as numbers; with it the reads after writes of other widths
(`Obligations.MixedWidths`, O25). The loads and stores of the next section rest on these rules. -/

namespace Sys2Proof.Machine

/-! ## The bytes of a word -/

/-- Byte `j` of a word as memory holds it: byte 0 is the most significant (R63). -/
def byteOf (v : Word) (j : Nat) : Byte := v.extractLsb' (8 * (3 - j)) 8

theorem getLsbD_byteOf (v : Word) (j n : Nat) : (byteOf v j).getLsbD n = (decide (n < 8) && v.getLsbD (8 * (3 - j) + n)) :=
  BitVec.getLsbD_extractLsb' ..

theorem byteOf_toNat (v : Word) (j : Nat) : (byteOf v j).toNat = v.toNat / 2 ^ (8 * (3 - j)) % 2 ^ 8 := by
  rw [byteOf, BitVec.extractLsb'_toNat, Nat.shiftRight_eq_div_pow]

theorem toNat_append_eq_add {m n : Nat} (x : BitVec m) (y : BitVec n) : (x ++ y).toNat = x.toNat * 2 ^ n + y.toNat := by
  rw [BitVec.toNat_append, ← Nat.shiftLeft_add_eq_or_of_lt y.isLt, Nat.shiftLeft_eq]

theorem wordOfBytes_toNat (b0 b1 b2 b3 : Byte) :
    (wordOfBytes b0 b1 b2 b3).toNat = ((b0.toNat * 2 ^ 8 + b1.toNat) * 2 ^ 8 + b2.toNat) * 2 ^ 8 + b3.toNat := by
  simp only [wordOfBytes, toNat_append_eq_add]

/-- A number below 4, one by one. -/
theorem forall_lt_four {P : Nat → Prop} : (∀ j, j < 4 → P j) ↔ P 0 ∧ P 1 ∧ P 2 ∧ P 3 :=
  ⟨fun h => ⟨h 0 (by decide), h 1 (by decide), h 2 (by decide), h 3 (by decide)⟩,
    fun ⟨h0, h1, h2, h3⟩ j hj => by interval_cases j <;> assumption⟩

theorem wordOfBytes_byteOf (v : Word) : wordOfBytes (byteOf v 0) (byteOf v 1) (byteOf v 2) (byteOf v 3) = v :=
  word_of_bytes v

theorem word_eq_of_bytes {v w : Word} (h : ∀ j, j < 4 → byteOf v j = byteOf w j) : v = w := by
  obtain ⟨h0, h1, h2, h3⟩ := forall_lt_four.mp h
  rw [← wordOfBytes_byteOf v, h0, h1, h2, h3, wordOfBytes_byteOf]

theorem byteOf_readWord (m : Memory) (a : Word) : ∀ j, j < 4 → byteOf (m.readWord a) j = m.read (a + BitVec.ofNat 32 j) := by
  have := (m.read a).isLt
  have := (m.read (a + 1)).isLt
  have := (m.read (a + 2)).isLt
  have := (m.read (a + 3)).isLt
  refine forall_lt_four.mpr ⟨?_, ?_, ?_, ?_⟩
  all_goals
    apply BitVec.eq_of_toNat_eq
    rw [byteOf_toNat, Memory.readWord, wordOfBytes_toNat]
    simp
    omega

/-! ## A stored word, byte by byte -/

theorem read_writeWord_byte {m : Memory} (h : m.wf = true) (a v : Word) :
    ∀ j, j < 4 → (m.writeWord a v).read (a + BitVec.ofNat 32 j) = byteOf v j := by
  intro j hj
  rw [← byteOf_readWord _ _ j hj, readWord_writeWord_same h]

theorem read_writeWord_outside {a b : Word} (h : ¬ span a 4 b) (m : Memory) (v : Word) :
    (m.writeWord a v).read b = m.read b := by
  have apart (j : Nat) (hj : j < 4) : b ≠ a + BitVec.ofNat 32 j := fun e => h ⟨j, hj, e⟩
  exact read_writeWord_other (by simpa using apart 0 (by decide)) (apart 1 (by decide)) (apart 2 (by decide))
    (apart 3 (by decide)) m v

theorem read_writeDouble_outside {a b : Word} (h : ¬ span a 8 b) (m : Memory) (v : Double) :
    (m.writeDouble a v).read b = m.read b := read_writeDouble_other (fun k hk e => h ⟨k, hk, e⟩) m v

/-- A word is read by its bytes alone. -/
theorem readWord_congr {m m' : Memory} {a : Word}
    (h : ∀ j, j < 4 → m'.read (a + BitVec.ofNat 32 j) = m.read (a + BitVec.ofNat 32 j)) :
    m'.readWord a = m.readWord a :=
  word_eq_of_bytes fun j hj => by rw [byteOf_readWord _ _ j hj, byteOf_readWord _ _ j hj, h j hj]

/-- The word before a stored one is as it was. -/
theorem readWord_writeWord_next (m : Memory) (a v : Word) : (m.writeWord (a + 4) v).readWord a = m.readWord a := by
  refine readWord_congr fun j hj => read_writeWord_outside ?_ m v
  rintro ⟨k, hk, e⟩
  rw [BitVec.add_assoc, show (4 : Word) + BitVec.ofNat 32 k = BitVec.ofNat 32 (4 + k) by simp [BitVec.ofNat_add]] at e
  exact add_ne_add (by omega) (by omega) (by omega) e

theorem readDouble_writeWords {m : Memory} (h : m.wf = true) (a w0 w1 : Word) :
    ((m.writeWord a w0).writeWord (a + 4) w1).readDouble a = w0 ++ w1 := by
  rw [Memory.readDouble, readWord_writeWord_next, readWord_writeWord_same h,
    readWord_writeWord_same (wf_writeWord h a w0)]

/-- Settles O25: the bytes of the stored word first, then what is read from them. -/
theorem mixedWidths : Obligations.MixedWidths := by
  intro m a w0 w1 h m0 m1
  obtain ⟨b0, b1, b2, b3⟩ := forall_lt_four.mp (read_writeWord_byte h a w0)
  rw [show a + BitVec.ofNat 32 0 = a by simp] at b0
  have high : m0.readHalf a = w0.extractLsb' 16 16 := by
    rw [Memory.readHalf]
    exact (congrArg₂ (· ++ ·) b0 b1).trans (BitVec.extractLsb'_append_extractLsb'_eq_extractLsb' (by omega))
  have low : m0.readHalf (a + 2) = w0.extractLsb' 0 16 := by
    rw [Memory.readHalf, show a + 2 + 1 = a + 3 by bv_omega]
    exact (congrArg₂ (· ++ ·) b2 b3).trans (BitVec.extractLsb'_append_extractLsb'_eq_extractLsb' (by omega))
  exact ⟨⟨b0, b1, b2, b3⟩, ⟨high, low⟩, readWord_writeWord_same h a w0, readDouble_writeWords h a w0 w1,
    wf_writeWord (wf_writeWord h a w0) (a + 4) w1⟩

/-! ## The merges, bit by bit -/

theorem getLsbD_lowMask (n i : Nat) (hn : n ≤ 32) : (BitVec.ofNat 32 (2 ^ n - 1)).getLsbD i = decide (i < n) := by
  rw [BitVec.getLsbD_ofNat, Nat.testBit_two_pow_sub_one]
  grind

theorem ones_ushiftRight (n : Nat) (hn : n ≤ 32) : 0xFFFFFFFF#32 >>> (32 - n) = BitVec.ofNat 32 (2 ^ n - 1) := by
  apply BitVec.eq_of_getLsbD_eq
  intro i hi
  rw [getLsbD_lowMask n i hn, BitVec.getLsbD_ushiftRight, show 0xFFFFFFFF#32 = BitVec.allOnes 32 from rfl,
    BitVec.getLsbD_allOnes, decide_eq_decide]
  omega

theorem byteOf_mergeLwl {k j : Nat} (hk : k < 4) (hj : j < 4) (w old : Word) :
    byteOf (mergeLwl k w old) j = if j + k < 4 then byteOf w (j + k) else byteOf old j := by
  apply BitVec.eq_of_getLsbD_eq
  intro n hn
  simp only [apply_ite (BitVec.getLsbD · n), getLsbD_byteOf, mergeLwl, BitVec.getLsbD_or, BitVec.getLsbD_and, BitVec.getLsbD_shiftLeft,
    getLsbD_lowMask (8 * k) _ (by omega)]
  grind

theorem byteOf_mergeLwr {k j : Nat} (hk : k < 4) (hj : j < 4) (w old : Word) :
    byteOf (mergeLwr k w old) j = if j + k < 3 then byteOf old j else byteOf w (j + k - 3) := by
  apply BitVec.eq_of_getLsbD_eq
  intro n hn
  simp only [apply_ite (BitVec.getLsbD · n), getLsbD_byteOf, mergeLwr, BitVec.getLsbD_or, BitVec.getLsbD_and,
    BitVec.getLsbD_not, BitVec.getLsbD_ushiftRight, getLsbD_lowMask (8 * (k + 1)) _ (by omega)]
  grind

theorem mergeSwl_mask {k : Nat} (hk : k < 4) : 0xFFFFFFFF#32 >>> (8 * k) = BitVec.ofNat 32 (2 ^ (32 - 8 * k) - 1) := by
  rw [← ones_ushiftRight _ (by omega)]
  congr 1
  omega

theorem byteOf_mergeSwl {k j : Nat} (hk : k < 4) (hj : j < 4) (w reg : Word) :
    byteOf (mergeSwl k w reg) j = if j < k then byteOf w j else byteOf reg (j - k) := by
  apply BitVec.eq_of_getLsbD_eq
  intro n hn
  simp only [apply_ite (BitVec.getLsbD · n), getLsbD_byteOf, mergeSwl, mergeSwl_mask hk, BitVec.getLsbD_or, BitVec.getLsbD_and,
    BitVec.getLsbD_not, BitVec.getLsbD_ushiftRight, getLsbD_lowMask (32 - 8 * k) _ (by omega)]
  grind

theorem byteOf_mergeSwr {k j : Nat} (hk : k < 4) (hj : j < 4) (w reg : Word) :
    byteOf (mergeSwr k w reg) j = if j ≤ k then byteOf reg (3 - k + j) else byteOf w j := by
  apply BitVec.eq_of_getLsbD_eq
  intro n hn
  simp only [apply_ite (BitVec.getLsbD · n), getLsbD_byteOf, mergeSwr, BitVec.getLsbD_or, BitVec.getLsbD_and,
    BitVec.getLsbD_shiftLeft, getLsbD_lowMask (8 * (3 - k)) _ (by omega)]
  grind

/-! ## The merges as numbers -/

/-- Two words with no bit in common, one above bit `n` and one below it, are added by `or`. -/
theorem or_eq_ofNat_add {x y : Word} {n q r : Nat} (hx : x.toNat = q * 2 ^ n) (hy : y.toNat = r) (hr : r < 2 ^ n) :
    x ||| y = BitVec.ofNat 32 (q * 2 ^ n + r) := by
  have sum : (x ||| y).toNat = q * 2 ^ n + r := by
    rw [BitVec.toNat_or, hx, hy, Nat.mul_comm, Nat.two_pow_add_eq_or_of_lt hr]
  rw [← sum, BitVec.ofNat_toNat, BitVec.setWidth_eq]

theorem and_lowMask_toNat (v : Word) {n : Nat} (hn : n ≤ 32) :
    (v &&& BitVec.ofNat 32 (2 ^ n - 1)).toNat = v.toNat % 2 ^ n := by
  have small : 2 ^ n - 1 < 2 ^ 32 := (Nat.sub_lt (by positivity) (by decide)).trans_le (Nat.pow_le_pow_right (by decide) hn)
  rw [BitVec.toNat_and, BitVec.toNat_ofNat, Nat.mod_eq_of_lt small, Nat.and_two_pow_sub_one_eq_mod]

theorem and_not_lowMask_toNat (v : Word) {n : Nat} (hn : n ≤ 32) :
    (v &&& ~~~BitVec.ofNat 32 (2 ^ n - 1)).toNat = v.toNat / 2 ^ n * 2 ^ n := by
  have shifts : v &&& ~~~BitVec.ofNat 32 (2 ^ n - 1) = v >>> n <<< n := by
    apply BitVec.eq_of_getLsbD_eq
    intro i hi
    simp only [BitVec.getLsbD_and, BitVec.getLsbD_not, getLsbD_lowMask n i hn, BitVec.getLsbD_shiftLeft,
      BitVec.getLsbD_ushiftRight]
    grind
  have small : v.toNat / 2 ^ n * 2 ^ n < 2 ^ 32 := (Nat.div_mul_le_self _ _).trans_lt v.isLt
  rw [shifts, BitVec.toNat_shiftLeft, BitVec.toNat_ushiftRight, Nat.shiftLeft_eq, Nat.shiftRight_eq_div_pow,
    Nat.mod_eq_of_lt small]

theorem shiftLeft_toNat (v : Word) {n : Nat} (hn : n ≤ 32) :
    (v <<< n).toNat = v.toNat % 2 ^ (32 - n) * 2 ^ n ∧ v.toNat * 2 ^ n % 2 ^ 32 = v.toNat % 2 ^ (32 - n) * 2 ^ n := by
  have power : (2 : Nat) ^ 32 = 2 ^ (32 - n) * 2 ^ n := by rw [← Nat.pow_add, Nat.sub_add_cancel hn]
  have shifted : v.toNat * 2 ^ n % 2 ^ 32 = v.toNat % 2 ^ (32 - n) * 2 ^ n := by rw [power, Nat.mul_mod_mul_right]
  exact ⟨by rw [BitVec.toNat_shiftLeft, Nat.shiftLeft_eq, shifted], shifted⟩

theorem ushiftRight_toNat_lt (v : Word) {n : Nat} (hn : n ≤ 32) :
    (v >>> n).toNat = v.toNat / 2 ^ n ∧ v.toNat / 2 ^ n < 2 ^ (32 - n) := by
  refine ⟨by rw [BitVec.toNat_ushiftRight, Nat.shiftRight_eq_div_pow], ?_⟩
  rw [Nat.div_lt_iff_lt_mul (by positivity), ← Nat.pow_add, Nat.sub_add_cancel hn]
  exact v.isLt

theorem mergeLwl_eq_ofNat {k : Nat} (hk : k < 4) (w old : Word) :
    mergeLwl k w old = BitVec.ofNat 32 (w.toNat * 2 ^ (8 * k) % 2 ^ 32 + old.toNat % 2 ^ (8 * k)) := by
  obtain ⟨high, number⟩ := shiftLeft_toNat w (n := 8 * k) (by omega)
  rw [number]
  exact or_eq_ofNat_add high (and_lowMask_toNat old (by omega)) (Nat.mod_lt _ (by positivity))

theorem mergeLwr_eq_ofNat {k : Nat} (hk : k < 4) (w old : Word) :
    mergeLwr k w old = BitVec.ofNat 32
      (old.toNat / 2 ^ (8 * (k + 1)) * 2 ^ (8 * (k + 1)) + w.toNat / 2 ^ (8 * (3 - k))) := by
  obtain ⟨low, small⟩ := ushiftRight_toNat_lt w (n := 8 * (3 - k)) (by omega)
  rw [show 32 - 8 * (3 - k) = 8 * (k + 1) by omega] at small
  exact or_eq_ofNat_add (and_not_lowMask_toNat old (by omega)) low small

theorem mergeSwl_eq_ofNat {k : Nat} (hk : k < 4) (w reg : Word) :
    mergeSwl k w reg = BitVec.ofNat 32
      (w.toNat / 2 ^ (8 * (4 - k)) * 2 ^ (8 * (4 - k)) + reg.toNat / 2 ^ (8 * k)) := by
  obtain ⟨low, small⟩ := ushiftRight_toNat_lt reg (n := 8 * k) (by omega)
  rw [show 32 - 8 * k = 8 * (4 - k) by omega] at small
  rw [mergeSwl, mergeSwl_mask hk, show 32 - 8 * k = 8 * (4 - k) by omega]
  exact or_eq_ofNat_add (and_not_lowMask_toNat w (by omega)) low small

theorem mergeSwr_eq_ofNat {k : Nat} (hk : k < 4) (w reg : Word) :
    mergeSwr k w reg = BitVec.ofNat 32
      (reg.toNat * 2 ^ (8 * (3 - k)) % 2 ^ 32 + w.toNat % 2 ^ (8 * (3 - k))) := by
  obtain ⟨high, number⟩ := shiftLeft_toNat reg (n := 8 * (3 - k)) (by omega)
  rw [number]
  exact or_eq_ofNat_add high (and_lowMask_toNat w (by omega)) (Nat.mod_lt _ (by positivity))

/-! ## The aligned word of an address -/

/-- The place of an address in its aligned word (R236). -/
theorem byteInWord_lt (a : Word) : byteInWord a < 4 := Nat.mod_lt _ (by decide)

theorem wordBase_aligned (a : Word) : (wordBase a).toNat % 4 = 0 := by
  rw [wordBase_toNat]
  omega

theorem wordBase_add (a : Word) : wordBase a + BitVec.ofNat 32 (byteInWord a) = a := by
  apply BitVec.eq_of_toNat_eq
  rw [BitVec.toNat_add, wordBase_toNat, BitVec.toNat_ofNat, byteInWord]
  have := a.isLt
  omega

theorem wordBase_eq_sub (a : Word) : wordBase a = a - BitVec.ofNat 32 (a.toNat % 4) := by
  rw [eq_sub_iff_add_eq]
  exact wordBase_add a

/-- An address `j` bytes into the aligned word of `a`, counted from `a`. -/
theorem add_ofNat_eq_wordBase_add (a : Word) (j : Nat) :
    a + BitVec.ofNat 32 j = wordBase a + BitVec.ofNat 32 (byteInWord a + j) := by
  rw [BitVec.ofNat_add, ← BitVec.add_assoc, wordBase_add]

/-! ## The bytes the unaligned stores write -/

/-- `swl` writes the register's high bytes from the address to the end of the aligned word, and no other (R240). -/
theorem read_swl {m : Memory} (h : m.wf = true) (a v : Word) :
    let m' := m.writeWord (wordBase a) (mergeSwl (byteInWord a) (m.readWord (wordBase a)) v)
    (∀ j, byteInWord a + j < 4 → m'.read (a + BitVec.ofNat 32 j) = byteOf v j) ∧
    ∀ b, ¬ span a (4 - byteInWord a) b → m'.read b = m.read b := by
  intro m'
  have place := byteInWord_lt a
  refine ⟨fun j hj => ?_, fun b hb => ?_⟩
  · rw [add_ofNat_eq_wordBase_add, read_writeWord_byte h _ _ _ hj, byteOf_mergeSwl place hj, if_neg (by omega),
      Nat.add_sub_cancel_left]
  · by_cases inside : span (wordBase a) 4 b
    · obtain ⟨j, hj, rfl⟩ := inside
      have below : j < byteInWord a := by
        by_contra above
        refine hb ⟨j - byteInWord a, by omega, ?_⟩
        rw [add_ofNat_eq_wordBase_add a, Nat.add_sub_cancel' (by omega)]
      rw [read_writeWord_byte h _ _ _ hj, byteOf_mergeSwl place hj, if_pos below, byteOf_readWord _ _ _ hj]
    · exact read_writeWord_outside inside m _

/-- `swr` writes the register's low bytes from the start of the aligned word to the address, and no other (R241). -/
theorem read_swr {m : Memory} (h : m.wf = true) (a v : Word) :
    let m' := m.writeWord (wordBase a) (mergeSwr (byteInWord a) (m.readWord (wordBase a)) v)
    (∀ j, j ≤ byteInWord a → m'.read (wordBase a + BitVec.ofNat 32 j) = byteOf v (3 - byteInWord a + j)) ∧
    ∀ b, ¬ span (wordBase a) (byteInWord a + 1) b → m'.read b = m.read b := by
  intro m'
  have place := byteInWord_lt a
  refine ⟨fun j hj => ?_, fun b hb => ?_⟩
  · rw [read_writeWord_byte h _ _ _ (by omega), byteOf_mergeSwr place (by omega), if_pos hj]
  · by_cases inside : span (wordBase a) 4 b
    · obtain ⟨j, hj, rfl⟩ := inside
      have above : ¬ j ≤ byteInWord a := fun below => hb ⟨j, by omega, rfl⟩
      rw [read_writeWord_byte h _ _ _ hj, byteOf_mergeSwr place hj, if_neg above, byteOf_readWord _ _ _ hj]
    · exact read_writeWord_outside inside m _

end Sys2Proof.Machine
end

section
/-! PROOFS. The loads and stores: what each does when its access is allowed (`Obligations.Loads`, O15, `Obligations.Stores`, O16,
`Obligations.StoreConditional`, O17, `Obligations.MapOnlyLoads`, O18, `Obligations.UnalignedStores`, O19,
`Obligations.UnalignedPairs`, O20, `Obligations.FpLoadsStores`, O21), misaligned (`Obligations.MisalignedAccesses`, O22) and not
allowed (`Obligations.UnmappedAccesses`, O23). Every meaning is checks, then a map over what they let through, so an
instruction's end follows from what its first check answers. -/

namespace Sys2Proof.Machine

/-! ## Checks and their ends -/

theorem complete_map_ok {α : Type} {r : Except Stop α} {v : α} (h : r = .ok v) (s : State) (f : α → State) :
    complete s (r.map f) = done (f v) := by
  subst h
  rfl

theorem complete_bind_ok {α : Type} {r : Except Stop α} {v : α} (h : r = .ok v) (s : State)
    (f : α → Except Stop State) : complete s (r.bind f) = complete s (f v) := by
  subst h
  rfl

/-- The first check that stops an instruction decides how. -/
theorem complete_bind_error {α : Type} {r : Except Stop α} {stop : Stop} (h : r = .error stop) (s : State)
    (f : α → Except Stop State) : complete s (r.bind f) = stopped s stop := by
  subst h
  rfl

theorem complete_map_error {α : Type} {r : Except Stop α} {stop : Stop} (h : r = .error stop) (s : State)
    (f : α → State) : complete s (r.map f) = stopped s stop := by
  subst h
  rfl

/-! ## Loads (R152 to R155) -/

theorem ea_eq_ofInt (s : State) (rs : RegNum) (imm : Half) :
    s.ea rs imm = BitVec.ofInt 32 ((s.x rs).toInt + imm.toInt) := add_signExtImm (s.x rs) imm

theorem readHalf_zeroExtended (m : Memory) (a : Word) :
    (m.readHalf a).setWidth 32 = 0#16 ++ m.read a ++ m.read (a + 1) := by
  rw [BitVec.append_assoc]
  exact BitVec.setWidth_eq_append (by decide)

/-- Settles O15: the check passes, and the register gets what memory reads. -/
theorem loads : Obligations.Loads := by
  intro rs rt imm s a m
  refine ⟨ea_eq_ofInt s rs imm, fun hm => ?lbu, fun ha hm => ?lhu, fun ha hm => ⟨?lw, ?ll⟩⟩
  case lbu => exact completes_of_setX (complete_map_ok (loadByte_ok hm) s _) (BitVec.setWidth_eq_append (by decide))
  case lhu => exact completes_of_setX (complete_map_ok (loadHalf_ok ha hm) s _) (readHalf_zeroExtended s.mem a)
  case lw => exact completes_of_setX (complete_map_ok (loadWord_ok ha hm) s _) rfl
  case ll =>
    exact completes_of (complete_map_ok (loadWord_ok ha hm) s _) ⟨setX_x_same s rt _, rfl, rfl⟩
      { changes_setX s rt (s.mem.readWord a) with link := fun unnamed => nomatch unnamed } ⟨rfl, rfl, rfl⟩ rfl

/-! ## Stores (R156 to R158) -/

theorem changes_setMem {s : State} {m : Memory} {bytes : Word → Prop}
    (h : ∀ b, ¬ bytes b → m.read b = s.mem.read b) : Changes { bytes := bytes } s (s.setMem m) :=
  { Changes.refl { bytes := bytes } s with bytes := h }

theorem completes_of_setMem {i : Instr} {s : State} {m : Memory} {bytes : Word → Prop} {result : State → Prop}
    (hx : exec i s = done (s.setMem m)) (hm : ∀ b, ¬ bytes b → m.read b = s.mem.read b)
    (hr : result (s.setMem m).advance) : Completes i s { bytes := bytes } result :=
  completes_of hx hr (changes_setMem hm) ⟨rfl, rfl, rfl⟩ rfl

theorem read_write_outside {a b : Word} (h : ¬ span a 1 b) (m : Memory) (v : Byte) : (m.write a v).read b = m.read b :=
  read_write_other (fun e => h ⟨0, by decide, by simpa using e⟩) m v

theorem read_writeHalf_outside {a b : Word} (h : ¬ span a 2 b) (m : Memory) (v : Half) :
    (m.writeHalf a v).read b = m.read b :=
  read_writeHalf_other (fun e => h ⟨0, by decide, by simpa using e⟩) (fun e => h ⟨1, by decide, e⟩) m v

theorem read_writeWord_bytes {m : Memory} (h : m.wf = true) (a v : Word) :
    (m.writeWord a v).read a = v.extractLsb' 24 8 ∧ (m.writeWord a v).read (a + 1) = v.extractLsb' 16 8 ∧
      (m.writeWord a v).read (a + 2) = v.extractLsb' 8 8 ∧ (m.writeWord a v).read (a + 3) = v.extractLsb' 0 8 := by
  obtain ⟨b0, b1, b2, b3⟩ := forall_lt_four.mp (read_writeWord_byte h a v)
  rw [show a + BitVec.ofNat 32 0 = a by simp] at b0
  exact ⟨b0, b1, b2, b3⟩

theorem read_writeHalf_bytes {m : Memory} (h : m.wf = true) (a v : Word) :
    (m.writeHalf a (v.extractLsb' 0 16)).read a = v.extractLsb' 8 8 ∧
      (m.writeHalf a (v.extractLsb' 0 16)).read (a + 1) = v.extractLsb' 0 8 := by
  have apart : a ≠ a + 1 := by bv_omega
  rw [read_writeHalf h, read_writeHalf h, if_neg apart, if_pos rfl, if_pos rfl]
  exact ⟨BitVec.extractLsb'_extractLsb'_of_le (by decide), BitVec.extractLsb'_extractLsb'_of_le (by decide)⟩

/-- Settles O16: the check passes, and the bytes written are the register's. -/
theorem stores : Obligations.Stores := by
  intro rs rt imm s wf a v
  refine ⟨fun hm => ?sb, fun ha hm => ?sh, fun ha hm => ?sw⟩
  case sb =>
    exact completes_of_setMem (complete_map_ok (checkStore_ok (Nat.mod_one _) hm) s _)
      (fun b outside => read_write_outside outside s.mem _) (read_write_same wf a _)
  case sh =>
    exact completes_of_setMem (complete_map_ok (checkStore_ok ha hm) s _)
      (fun b outside => read_writeHalf_outside outside s.mem _) (read_writeHalf_bytes wf a v)
  case sw =>
    exact completes_of_setMem (complete_map_ok (checkStore_ok ha hm) s _)
      (fun b outside => read_writeWord_outside outside s.mem _) (read_writeWord_bytes wf a v)

/-! ## `sc` (R159) -/

theorem exec_sc_of_same {s : State} {rs rt : RegNum} {imm : Half} (ha : (s.ea rs imm).toNat % 4 = 0)
    (hm : Allowed s .write (s.ea rs imm) 4) (h : s.llbit = true → s.lladdr = s.ea rs imm) :
    exec (.sc rs rt imm) s = done (storeConditional rt (s.ea rs imm) s) := by
  have same : sameReservation s (s.ea rs imm) = .ok () := if_neg (by simpa using h)
  exact (complete_bind_ok (checkStore_ok ha hm) s _).trans (complete_map_ok same s _)

theorem exec_sc_of_other {s : State} {rs rt : RegNum} {imm : Half} (ha : (s.ea rs imm).toNat % 4 = 0)
    (hm : Allowed s .write (s.ea rs imm) 4) (held : s.llbit = true) (h : s.lladdr ≠ s.ea rs imm) :
    exec (.sc rs rt imm) s = .refused .scAddressMismatch := by
  have other : sameReservation s (s.ea rs imm) = .error (.refuse .scAddressMismatch) := if_pos (by simp [held, h])
  exact (complete_bind_ok (checkStore_ok ha hm) s _).trans (complete_map_error other s _)

theorem storeConditional_unheld {s : State} (h : s.llbit = false) (rt : RegNum) (a : Word) :
    storeConditional rt a s = (s.setX rt 0#32).clearLink := if_neg (by simp [h])

theorem storeConditional_failing {s : State} (h : s.llbit = true) (fails : Config.freeBit s.draws = true) (rt : RegNum)
    (a : Word) : storeConditional rt a s = ((s.setX rt 0#32).clearLink).drawn 1 :=
  (if_pos h).trans (if_pos (by simp [Config.scMayFail, fails]))

theorem storeConditional_storing {s : State} (h : s.llbit = true) (stores : Config.freeBit s.draws = false) (rt : RegNum)
    (a : Word) : storeConditional rt a s =
      (((s.setMem (s.mem.writeWord a (s.x rt))).setX rt 1#32).clearLink).drawn 1 :=
  (if_pos h).trans (if_neg (by simp [stores]))

theorem completes_sc_unheld {s : State} {rs rt : RegNum} {imm : Half} (ha : (s.ea rs imm).toNat % 4 = 0)
    (hm : Allowed s .write (s.ea rs imm) 4) (unheld : s.llbit = false) :
    Completes (.sc rs rt imm) s { gprs := [rt], link := true } fun t =>
      t.x rt = 0 ∧ t.llbit = false ∧ t.lladdr = s.lladdr := by
  have hx := exec_sc_of_same (rt := rt) ha hm fun held => absurd held (by simp [unheld])
  rw [storeConditional_unheld unheld] at hx
  exact completes_of hx ⟨(setX_x_same s rt 0#32).trans (ite_self _), rfl, rfl⟩
    { changes_setX s rt 0#32 with link := fun unnamed => nomatch unnamed } ⟨rfl, rfl, rfl⟩ rfl

theorem completes_sc_failing {s : State} {rs rt : RegNum} {imm : Half} (ha : (s.ea rs imm).toNat % 4 = 0)
    (hm : Allowed s .write (s.ea rs imm) 4) (held : s.llbit = true) (own : s.lladdr = s.ea rs imm)
    (fails : Config.freeBit s.draws = true) :
    Completes (.sc rs rt imm) s { gprs := [rt], link := true, draws := true } fun t =>
      t.x rt = 0 ∧ t.llbit = false ∧ t.lladdr = s.lladdr := by
  have hx := exec_sc_of_same (rt := rt) ha hm fun _ => own
  rw [storeConditional_failing held fails] at hx
  refine completes_of hx ⟨(setX_x_same s rt 0#32).trans (ite_self _), rfl, rfl⟩ ?_ ⟨rfl, rfl, rfl⟩ rfl
  exact { Changes.refl { gprs := [rt], link := true, draws := true } s with
    gprs := (changes_setX s rt 0#32).gprs
    link := fun unnamed => nomatch unnamed
    draws := fun unnamed => nomatch unnamed }

theorem completes_sc_storing {s : State} {rs rt : RegNum} {imm : Half} (wf : s.mem.wf = true)
    (ha : (s.ea rs imm).toNat % 4 = 0) (hm : Allowed s .write (s.ea rs imm) 4) (held : s.llbit = true)
    (own : s.lladdr = s.ea rs imm) (stores : Config.freeBit s.draws = false) :
    Completes (.sc rs rt imm) s { gprs := [rt], link := true, draws := true, bytes := span (s.ea rs imm) 4 } fun t =>
      t.x rt = afterWrite rt 1 ∧ t.mem.readWord (s.ea rs imm) = s.x rt ∧ t.llbit = false ∧ t.lladdr = s.lladdr := by
  have hx := exec_sc_of_same (rt := rt) ha hm fun _ => own
  rw [storeConditional_storing held stores] at hx
  refine completes_of hx ⟨setX_x_same _ rt 1#32, readWord_writeWord_same wf _ (s.x rt), rfl, rfl⟩ ?_ ⟨rfl, rfl, rfl⟩ rfl
  exact { Changes.refl { gprs := [rt], link := true, draws := true, bytes := span (s.ea rs imm) 4 } s with
    gprs := (changes_setX (s.setMem (s.mem.writeWord (s.ea rs imm) (s.x rt))) rt 1#32).gprs
    bytes := fun b outside => read_writeWord_outside outside s.mem _
    link := fun unnamed => nomatch unnamed
    draws := fun unnamed => nomatch unnamed }

/-! ## The sign-extending and the partial loads (R234, R235, R238, R239) -/

theorem exec_loadPart {s : State} {a : Word} (hm : Allowed s .read (wordBase a) 4) (merge : Nat → Word → Word → Word)
    (rt : RegNum) :
    loadPart merge rt a s = done (s.setX rt (merge (byteInWord a) (s.mem.readWord (wordBase a)) (s.x rt))) :=
  complete_map_ok (loadWord_ok (wordBase_aligned a) hm) s _

/-- Settles O18: the extensions are by value, the merges as numbers. -/
theorem mapOnlyLoads : Obligations.MapOnlyLoads := by
  intro rs rt imm s a k base w old
  have hbase : base = wordBase a := (wordBase_eq_sub a).symm
  have place : k < 4 := byteInWord_lt a
  refine ⟨fun hm => ?lb, fun ha hm => ?lh, fun hm => ⟨?lwl, ?lwr⟩⟩
  case lb => exact completes_of_setX (complete_map_ok (loadByte_ok hm) s _) rfl
  case lh => exact completes_of_setX (complete_map_ok (loadHalf_ok ha hm) s _) rfl
  case lwl =>
    rw [hbase] at hm
    refine completes_of_setX (exec_loadPart hm mergeLwl rt) ?_
    rw [mergeLwl_eq_ofNat (byteInWord_lt a), ← hbase]
    rfl
  case lwr =>
    rw [hbase] at hm
    refine completes_of_setX (exec_loadPart hm mergeLwr rt) ?_
    rw [mergeLwr_eq_ofNat (byteInWord_lt a), ← hbase]
    rfl

/-! ## The partial stores (R240, R241) -/

theorem exec_storePart {s : State} {a : Word} (hr : Allowed s .read (wordBase a) 4) (hw : Allowed s .write (wordBase a) 4)
    (merge : Nat → Word → Word → Word) (rt : RegNum) :
    storePart merge rt a s = done (s.setMem (s.mem.writeWord (wordBase a)
      (merge (byteInWord a) (s.mem.readWord (wordBase a)) (s.x rt)))) :=
  (complete_bind_ok (loadWord_ok (wordBase_aligned a) hr) s _).trans
    (complete_map_ok (checkStore_ok (wordBase_aligned a) hw) s _)

/-- Settles O19: the merged word is stored, and its bytes outside the part are those it replaces. -/
theorem unalignedStores : Obligations.UnalignedStores := by
  intro rs rt imm s wf a k base w v
  have hbase : base = wordBase a := (wordBase_eq_sub a).symm
  intro hr hw
  rw [hbase] at hr hw
  obtain ⟨-, keepsLeft⟩ := read_swl wf a (s.x rt)
  obtain ⟨-, keepsRight⟩ := read_swr wf a (s.x rt)
  refine ⟨completes_of_setMem (exec_storePart hr hw mergeSwl rt) keepsLeft ?_, ?_⟩
  · rw [← hbase, mergeSwl_eq_ofNat (byteInWord_lt a)]
    exact readWord_writeWord_same wf base _
  · rw [← hbase] at keepsRight
    refine completes_of_setMem (exec_storePart hr hw mergeSwr rt) (hbase ▸ keepsRight) ?_
    rw [← hbase, mergeSwr_eq_ofNat (byteInWord_lt a)]
    exact readWord_writeWord_same wf base _

/-! ## The unaligned pairs (R236) -/

theorem runList_pair {i j : Instr} {s t u : State} (hi : exec i s = .next t) (hj : exec j t = .next u) :
    runList [i, j] s = .next u := by simp [runList, hi, hj]

/-- Where a word that starts at `p` ends: in the aligned word of `p`, or in the one after it. -/
theorem byteInWord_add_three (p : Word) : byteInWord (p + 3) = (byteInWord p + 3) % 4 := by
  unfold byteInWord
  bv_omega

/-- An address in the aligned word of `p + 3`, counted from `p`. -/
theorem wordBase_add_three_add (p : Word) (i : Nat) :
    wordBase (p + 3) + BitVec.ofNat 32 i = p + BitVec.ofNat 32 (3 - byteInWord (p + 3) + i) := by
  have place := byteInWord_lt (p + 3)
  have base : wordBase (p + 3) = p + BitVec.ofNat 32 (3 - byteInWord (p + 3)) := by
    rw [← add_left_inj (BitVec.ofNat 32 (byteInWord (p + 3))), wordBase_add, BitVec.add_assoc, ← BitVec.ofNat_add,
      Nat.sub_add_cancel (by omega)]
    rfl
  rw [base, BitVec.add_assoc, ← BitVec.ofNat_add]

/-- The two partial loads together read the word at `p`, whatever was in the register. -/
theorem merge_loads (m : Memory) (p old : Word) :
    mergeLwr (byteInWord (p + 3)) (m.readWord (wordBase (p + 3)))
      (mergeLwl (byteInWord p) (m.readWord (wordBase p)) old) = m.readWord p := by
  have first := byteInWord_lt p
  have last := byteInWord_lt (p + 3)
  have ends := byteInWord_add_three p
  refine word_eq_of_bytes fun j hj => ?_
  rw [byteOf_readWord m p j hj, byteOf_mergeLwr last hj]
  split_ifs with inFirst
  · rw [byteOf_mergeLwl first hj, if_pos (by omega), byteOf_readWord _ _ _ (by omega), add_ofNat_eq_wordBase_add p,
      Nat.add_comm]
  · rw [byteOf_readWord _ _ _ (by omega), wordBase_add_three_add]
    congr 3
    omega

theorem runList_loads {s : State} {rs rt : RegNum} {imm imm3 : Half} (h3 : s.ea rs imm3 = s.ea rs imm + 3)
    (hr : Allowed s .read (wordBase (s.ea rs imm)) 4) (hr3 : Allowed s .read (wordBase (s.ea rs imm + 3)) 4)
    (apart : rs ≠ rt ∨ rt = 0) : ∃ t, runList [.lwl rs rt imm, .lwr rs rt imm3] s = .next t ∧
      t.x rt = afterWrite rt (s.mem.readWord (s.ea rs imm)) := by
  let v := mergeLwl (byteInWord (s.ea rs imm)) (s.mem.readWord (wordBase (s.ea rs imm))) (s.x rt)
  let t := (s.setX rt v).advance
  have base : t.x rs = s.x rs := by
    obtain apart | rfl := apart
    · exact setX_x_other s apart v
    · exact (setX_x s 0 rs v).trans (if_neg fun zero => zero.2 rfl)
  have again : t.ea rs imm3 = s.ea rs imm + 3 := (congrArg (· + signExtImm imm3) base).trans h3
  have second : exec (.lwr rs rt imm3) t = _ :=
    exec_loadPart (s := t) (a := t.ea rs imm3) (by rw [again]; exact hr3) mergeLwr rt
  refine ⟨_, runList_pair (exec_loadPart hr mergeLwl rt) second, (setX_x_same t rt _).trans ?_⟩
  by_cases zero : rt = 0#5
  · rw [if_pos zero, afterWrite, if_pos zero]
  · have loaded : t.x rt = v := (setX_x_same s rt v).trans (if_neg zero)
    rw [if_neg zero, afterWrite, if_neg zero, again, loaded]
    exact merge_loads s.mem (s.ea rs imm) (s.x rt)

/-- The two partial stores together write the word at `p`, and no other byte. -/
theorem read_stores {m : Memory} (h : m.wf = true) (p v : Word) :
    let m1 := m.writeWord (wordBase p) (mergeSwl (byteInWord p) (m.readWord (wordBase p)) v)
    let m2 := m1.writeWord (wordBase (p + 3)) (mergeSwr (byteInWord (p + 3)) (m1.readWord (wordBase (p + 3))) v)
    m2.readWord p = v ∧ ∀ b, ¬ span p 4 b → m2.read b = m.read b := by
  intro m1 m2
  obtain ⟨left, leftKept⟩ := read_swl h p v
  obtain ⟨right, rightKept⟩ := read_swr (m := m1) (wf_writeWord h _ _) (p + 3) v
  have first := byteInWord_lt p
  have last := byteInWord_lt (p + 3)
  have ends := byteInWord_add_three p
  constructor
  · refine word_eq_of_bytes fun j hj => ?_
    rw [byteOf_readWord m2 p j hj]
    by_cases inFirst : j + byteInWord (p + 3) < 3
    · refine (rightKept _ ?_).trans (left j (by omega))
      rintro ⟨i, hi, e⟩
      rw [wordBase_add_three_add] at e
      exact add_ne_add (by omega) (by omega) (by omega) e
    · have at_right := right (j + byteInWord (p + 3) - 3) (by omega)
      rw [wordBase_add_three_add] at at_right
      rwa [show 3 - byteInWord (p + 3) + (j + byteInWord (p + 3) - 3) = j by omega] at at_right
  · intro b outside
    refine (rightKept b ?_).trans (leftKept b ?_)
    · rintro ⟨i, hi, rfl⟩
      exact outside ⟨_, by omega, wordBase_add_three_add p i⟩
    · rintro ⟨i, hi, rfl⟩
      exact outside ⟨i, by omega, rfl⟩

theorem runList_stores {s : State} {rs rt : RegNum} {imm imm3 : Half} (h3 : s.ea rs imm3 = s.ea rs imm + 3)
    (hr : Allowed s .read (wordBase (s.ea rs imm)) 4) (hr3 : Allowed s .read (wordBase (s.ea rs imm + 3)) 4)
    (hw : Allowed s .write (wordBase (s.ea rs imm)) 4) (hw3 : Allowed s .write (wordBase (s.ea rs imm + 3)) 4)
    (wf : s.mem.wf = true) : ∃ t, runList [.swl rs rt imm, .swr rs rt imm3] s = .next t ∧
      t.mem.readWord (s.ea rs imm) = s.x rt ∧ ∀ b, ¬ span (s.ea rs imm) 4 b → t.mem.read b = s.mem.read b := by
  let p := s.ea rs imm
  let t := (s.setMem (s.mem.writeWord (wordBase p)
    (mergeSwl (byteInWord p) (s.mem.readWord (wordBase p)) (s.x rt)))).advance
  have again : t.ea rs imm3 = p + 3 := h3
  have second : storePart mergeSwr rt (p + 3) t = _ := exec_storePart (s := t) hr3 hw3 mergeSwr rt
  rw [← again] at second
  refine ⟨_, runList_pair (exec_storePart hr hw mergeSwl rt) second, ?_⟩
  rw [again]
  exact read_stores wf p (s.x rt)

/-- Settles O20: the second access of each pair runs from the state of the first, at the same base. -/
theorem unalignedPairs : Obligations.UnalignedPairs := by
  intro rs rt imm imm3 s p h3 hr hr3
  exact ⟨runList_loads h3 hr hr3, fun wf hw hw3 => runList_stores h3 hr hr3 hw hw3 wf⟩

/-! ## The floating-point loads and stores (R210 to R213) -/

theorem alignedLoad_ok {a : Word} {n : Nat} (ha : a.toNat % n = 0) : alignedLoad a n = .ok () :=
  if_pos ((aligned_iff a n).mpr ha)

theorem alignedStore_ok {a : Word} {n : Nat} (ha : a.toNat % n = 0) : alignedStore a n = .ok () :=
  if_pos ((aligned_iff a n).mpr ha)

theorem evenOnly_even {n : RegNum} (h : n.toNat % 2 = 0) : evenOnly [n] = .ok () := evenOnly_ok (by simp [namesDouble, h])

theorem exec_ldc1_of_aligned {s : State} {rs rt : RegNum} {imm : Half} (ha : (s.ea rs imm).toNat % 8 = 0)
    (even : rt.toNat % 2 = 0) : exec (.ldc1 rs rt imm) s =
      complete s ((mappedLoad s (s.ea rs imm) 8).map fun _ => s.setD rt (s.mem.readDouble (s.ea rs imm))) :=
  (complete_bind_ok (alignedLoad_ok ha) s _).trans (complete_bind_ok (evenOnly_even even) s _)

theorem exec_sdc1_of_aligned {s : State} {rs rt : RegNum} {imm : Half} (ha : (s.ea rs imm).toNat % 8 = 0)
    (even : rt.toNat % 2 = 0) : exec (.sdc1 rs rt imm) s = complete s ((mappedStore s (s.ea rs imm) 8).map fun _ =>
      s.setMem (s.mem.writeDouble (s.ea rs imm) (s.d rt))) :=
  (complete_bind_ok (alignedStore_ok ha) s _).trans (complete_bind_ok (evenOnly_even even) s _)

theorem halves_of_append (high low : Word) :
    (high ++ low).extractLsb' 32 32 = high ∧ (high ++ low).extractLsb' 0 32 = low := by
  constructor
  · exact BitVec.extractLsb'_append_eq_left
  · exact BitVec.extractLsb'_append_eq_right

/-- Settles O21: as for the loads and stores of words, a double being two words; an odd register is refused once the address
is aligned. -/
theorem fpLoadsStores : Obligations.FpLoadsStores := by
  intro rs rt imm s wf a
  refine ⟨fun ha hm => ?lwc1, fun ha hm => ?swc1, fun ha even hm => ?ldc1, fun ha even hm => ?sdc1, fun ha odd => ?odd⟩
  case lwc1 =>
    exact completes_of (complete_map_ok (loadWord_ok ha hm) s _) (setF_f_same s rt _) (changes_setF s rt _)
      ⟨rfl, rfl, rfl⟩ rfl
  case swc1 =>
    exact completes_of_setMem (complete_map_ok (checkStore_ok ha hm) s _)
      (fun b outside => read_writeWord_outside outside s.mem _) (readWord_writeWord_same wf a (s.f rt))
  case ldc1 =>
    have mappedOk : mappedLoad s a 8 = .ok () := if_pos ((mappedAll_iff s .read a 8).mpr hm)
    obtain ⟨high, low⟩ := halves_of_append (s.mem.readWord a) (s.mem.readWord (a + 4))
    have apart : rt ≠ rt + 1 := by bv_omega
    refine completes_of ((exec_ldc1_of_aligned ha even).trans (complete_map_ok mappedOk s _)) ⟨?_, ?_⟩
      (changes_setD s rt _) ⟨rfl, rfl, rfl⟩ rfl
    · exact (setD_f s rt rt _).trans ((if_neg apart).trans ((if_pos rfl).trans high))
    · exact (setD_f s rt (rt + 1) _).trans ((if_pos rfl).trans low)
  case sdc1 =>
    have mappedOk : mappedStore s a 8 = .ok () := if_pos ((mappedAll_iff s .write a 8).mpr hm)
    obtain ⟨high, low⟩ := halves_of_append (s.f rt) (s.f (rt + 1))
    refine completes_of_setMem ((exec_sdc1_of_aligned ha even).trans (complete_map_ok mappedOk s _))
      (fun b outside => read_writeDouble_outside outside s.mem _) ⟨?_, ?_⟩
    · exact ((readWord_writeWord_next _ a _).trans (readWord_writeWord_same wf a _)).trans high
    · exact (readWord_writeWord_same (wf_writeWord wf a _) (a + 4) _).trans low
  case odd =>
    have refuses : evenOnly [rt] = .error (.refuse .oddDoubleRegister) := evenOnly_odd (by simp [namesDouble, odd])
    exact ⟨(complete_bind_ok (alignedLoad_ok ha) s _).trans (complete_bind_error refuses s _),
      (complete_bind_ok (alignedStore_ok ha) s _).trans (complete_bind_error refuses s _)⟩

/-! ## Accesses that stop -/

theorem alignedLoad_misaligned {a : Word} {n : Nat} (ha : a.toNat % n ≠ 0) :
    alignedLoad a n = .error (.raise .adEL a) := if_neg (mt (aligned_iff a n).mp ha)

theorem alignedStore_misaligned {a : Word} {n : Nat} (ha : a.toNat % n ≠ 0) :
    alignedStore a n = .error (.raise .adES a) := if_neg (mt (aligned_iff a n).mp ha)

theorem loadByte_stops {s : State} {a : Word} {stop : Stop} (h : checkLoad s a 1 = .error stop) :
    loadByte s a = .error stop := by rw [loadByte, h]; rfl

theorem loadHalf_stops {s : State} {a : Word} {stop : Stop} (h : checkLoad s a 2 = .error stop) :
    loadHalf s a = .error stop := by rw [loadHalf, h]; rfl

theorem loadWord_stops {s : State} {a : Word} {stop : Stop} (h : checkLoad s a 4 = .error stop) :
    loadWord s a = .error stop := by rw [loadWord, h]; rfl

/-- Settles O22: alignment is the first check of every one of them. -/
theorem misalignedAccesses : Obligations.MisalignedAccesses := by
  intro rs rt imm s a
  refine ⟨fun ha => ?half, fun ha => ?word, fun ha => ?double⟩
  case half =>
    have load := loadHalf_stops (checkLoad_misaligned (s := s) ha)
    exact ⟨takes_of (complete_map_error load s _), takes_of (complete_map_error load s _),
      takes_of (complete_map_error (checkStore_misaligned ha) s _)⟩
  case word =>
    have load := loadWord_stops (checkLoad_misaligned (s := s) ha)
    exact ⟨takes_of (complete_map_error load s _), takes_of (complete_map_error load s _),
      takes_of (complete_map_error load s _), takes_of (complete_map_error (checkStore_misaligned ha) s _),
      takes_of (complete_bind_error (checkStore_misaligned ha) s _),
      takes_of (complete_map_error (checkStore_misaligned ha) s _)⟩
  case double =>
    exact ⟨takes_of (complete_bind_error (alignedLoad_misaligned ha) s _),
      takes_of (complete_bind_error (alignedStore_misaligned ha) s _)⟩

/-- What a store that the map does not allow at `b` stops with. -/
def storeStop (b : Word) : Stop := if inText b then .refuse .storeIntoText else .raise .dbe b

/-- `a` is the address that decides, `b` the one that is reported. -/
theorem stops_of_storeStop {i : Instr} {s : State} {a b : Word} (same : inText b = inText a)
    (hx : exec i s = stopped s (storeStop b)) :
    (0x00400000 ≤ a.toNat ∧ a.toNat ≤ 0x0FFFFFFF → exec i s = .refused .storeIntoText) ∧
    (¬ (0x00400000 ≤ a.toNat ∧ a.toNat ≤ 0x0FFFFFFF) → Takes i s .dbe b) := by
  rw [← inText_iff, ← same]
  refine ⟨fun text => ?_, fun noText => takes_of ?_⟩
  · rw [hx, storeStop, if_pos text]
    rfl
  · rw [hx, storeStop, if_neg noText]
    rfl

theorem mappedStore_unmapped {s : State} {a : Word} {n : Nat} (hm : ¬ Allowed s .write a n) :
    mappedStore s a n = .error (storeStop a) := by
  rw [mappedStore, if_neg (mt (mappedAll_iff s .write a n).mp hm), storeStop]
  split <;> rfl

/-- Settles O23: with alignment granted, the map is the next check; the partial accesses check the aligned word, reading
first. -/
theorem unmappedAccesses : Obligations.UnmappedAccesses := by
  intro rs rt imm s a inTextSegment stops
  have store {n : Nat} (ha : a.toNat % n = 0) (hm : ¬ Allowed s .write a n) : checkStore s a n = .error (storeStop a) :=
    checkStore_unmapped ha hm
  have text : inText (wordBase a) = inText a := inText_wordBase a
  refine ⟨fun hm => ?lb, fun ha hm => ?lh, fun ha hm => ?lw, fun ha even hm => ?ldc1, fun hm => ?sb, fun ha hm => ?sh,
    fun ha hm => ?sw, fun ha even hm => ?sdc1, fun hm => ?partRead, fun hr hw => ?partWrite⟩
  case lb =>
    have load := loadByte_stops (checkLoad_unmapped (Nat.mod_one _) hm)
    exact ⟨takes_of (complete_map_error load s _), takes_of (complete_map_error load s _)⟩
  case lh =>
    have load := loadHalf_stops (checkLoad_unmapped ha hm)
    exact ⟨takes_of (complete_map_error load s _), takes_of (complete_map_error load s _)⟩
  case lw =>
    have load := loadWord_stops (checkLoad_unmapped ha hm)
    exact ⟨takes_of (complete_map_error load s _), takes_of (complete_map_error load s _),
      takes_of (complete_map_error load s _)⟩
  case ldc1 =>
    have load : mappedLoad s a 8 = .error (.raise .dbe a) := if_neg (mt (mappedAll_iff s .read a 8).mp hm)
    exact takes_of ((exec_ldc1_of_aligned ha even).trans (complete_map_error load s _))
  case sb => exact stops_of_storeStop rfl (complete_map_error (store (Nat.mod_one _) hm) s _)
  case sh => exact stops_of_storeStop rfl (complete_map_error (store ha hm) s _)
  case sw =>
    exact ⟨stops_of_storeStop rfl (complete_map_error (store ha hm) s _),
      stops_of_storeStop rfl (complete_bind_error (store ha hm) s _),
      stops_of_storeStop rfl (complete_map_error (store ha hm) s _)⟩
  case sdc1 =>
    exact stops_of_storeStop rfl
      ((exec_sdc1_of_aligned ha even).trans (complete_map_error (mappedStore_unmapped hm) s _))
  case partRead =>
    have load := loadWord_stops (checkLoad_unmapped (wordBase_aligned a) hm)
    exact ⟨takes_of (complete_map_error load s _), takes_of (complete_map_error load s _),
      takes_of (complete_bind_error load s _), takes_of (complete_bind_error load s _)⟩
  case partWrite =>
    have read := loadWord_ok (wordBase_aligned a) hr
    have write : checkStore s (wordBase a) 4 = .error (storeStop (wordBase a)) :=
      checkStore_unmapped (wordBase_aligned a) hw
    simp only [List.mem_cons, List.not_mem_nil, or_false, forall_eq_or_imp, forall_eq]
    exact ⟨stops_of_storeStop text ((complete_bind_ok read s _).trans (complete_map_error write s _)),
      stops_of_storeStop text ((complete_bind_ok read s _).trans (complete_map_error write s _))⟩

end Sys2Proof.Machine

namespace Sys2Proof

open Machine

/-- Settles O17: the reservation and the draw select one of the three ends of `sc`. -/
theorem storeConditional : Obligations.StoreConditional := fun _ _ _ _ wf ha hm =>
  ⟨completes_sc_unheld ha hm,
    fun held own => ⟨completes_sc_storing wf ha hm held own, completes_sc_failing ha hm held own⟩,
    exec_sc_of_other ha hm⟩

end Sys2Proof
end

section
/-! PROOFS. The checks of a step in their order: the end of the run (`Obligations.EndOfRun`, O51), interrupts
(`Obligations.Interrupts`, O50), the fetch (`Obligations.FetchExceptions`, O49) and the decoded instruction
(`Obligations.StepRunsDecoded`, O48). The four lemmas on `step` say what each check leaves to do. -/

namespace Sys2Proof.Machine

/-! ## The checks of a step -/

theorem atEnd_iff (s : State) : s.atEnd = true ↔ s.endPc = some s.pc ∧ s.inDelay = false := by simp [State.atEnd]

theorem atEnd_sampleIrq {s : State} (h : s.endPc ≠ some s.pc ∨ s.inDelay = true) : s.sampleIrq.atEnd ≠ true := by
  rw [Ne, atEnd_iff]
  rintro ⟨here, outside⟩
  obtain elsewhere | inside := h
  · exact elsewhere here
  · exact absurd (inside.symm.trans outside) (by decide)

theorem interruptCondition_sampleIrq (s : State) :
    s.sampleIrq.interruptCondition = true ↔ s.ie = true ∧ s.el = false ∧ s.irqNow &&& s.im ≠ 0 := by
  have lines : s.sampleIrq.ip = s.irqNow := ip_causeWithIp _ _
  rw [State.interruptCondition, lines, Bool.and_eq_true, Bool.and_eq_true, decide_eq_true_eq, Bool.not_eq_true', and_assoc]
  rfl

theorem step_of_atEnd {s : State} (running : s.outcome = .running) (h : s.sampleIrq.atEnd = true) :
    step s = .next s.sampleIrq.finish := by rw [step, if_pos running, if_pos h]

theorem step_of_interrupt {s : State} (running : s.outcome = .running) (unended : s.sampleIrq.atEnd ≠ true)
    (h : s.sampleIrq.interruptCondition = true) :
    step s = .next (s.sampleIrq.takeException .int (s.sampleIrq.ip.setWidth 32)) := by
  rw [step, if_pos running, if_neg unended, if_pos h]
  rfl

theorem step_of_fetched {s : State} {i : Instr} (running : s.outcome = .running) (unended : s.sampleIrq.atEnd ≠ true)
    (quiet : s.sampleIrq.interruptCondition = false) (h : fetchInstr s.sampleIrq = .ok i) :
    step s = exec i s.sampleIrq := by
  rw [step, if_pos running, if_neg unended, if_neg (by simp [quiet]), h]

theorem step_of_unfetched {s : State} {stop : Stop} (running : s.outcome = .running) (unended : s.sampleIrq.atEnd ≠ true)
    (quiet : s.sampleIrq.interruptCondition = false) (h : fetchInstr s.sampleIrq = .error stop) :
    step s = stopped s.sampleIrq stop := by
  rw [step, if_pos running, if_neg unended, if_neg (by simp [quiet]), h]

/-! ## The fetch -/

theorem pc_aligned_iff (s : State) : s.pc.extractLsb' 0 2 = 0 ↔ s.pc.toNat % 4 = 0 := by
  rw [← BitVec.toNat_inj, BitVec.extractLsb'_toNat]
  simp

theorem fetchWord_misaligned {s : State} (h : s.pc.toNat % 4 ≠ 0) : fetchWord s = .error (.raise .adEL s.pc) :=
  if_pos (mt (pc_aligned_iff s).mp h)

theorem fetchWord_unmapped {s : State} (ha : s.pc.toNat % 4 = 0) (hm : ¬ Allowed s .fetch s.pc 4) :
    fetchWord s = .error (.raise .ibe s.pc) := by
  rw [fetchWord, if_neg (not_not_intro ((pc_aligned_iff s).mpr ha)), if_pos]
  simpa using mt (mappedAll_iff s .fetch s.pc 4).mp hm

theorem fetchWord_ok {s : State} (ha : s.pc.toNat % 4 = 0) (hm : Allowed s .fetch s.pc 4) :
    fetchWord s = .ok (s.mem.readWord s.pc) := by
  rw [fetchWord, if_neg (not_not_intro ((pc_aligned_iff s).mpr ha)), if_neg]
  simp [(mappedAll_iff s .fetch s.pc 4).mpr hm]

theorem fetchInstr_of_decode {s : State} {i : Instr} (hw : fetchWord s = .ok (s.mem.readWord s.pc))
    (hd : decode (s.mem.readWord s.pc) = .ok i) : fetchInstr s = .ok i := by
  simp [fetchInstr, hw, Except.bind, decodeFetched, hd]

theorem fetchInstr_reserved {s : State} (hw : fetchWord s = .ok (s.mem.readWord s.pc))
    (hd : ∀ i, decode (s.mem.readWord s.pc) ≠ .ok i) : fetchInstr s = .error (.raise .ri (s.mem.readWord s.pc)) := by
  simp only [fetchInstr, hw, Except.bind, decodeFetched]
  split
  · next i ok => exact absurd ok (hd i)
  · rfl

/-! ## The four statements -/

/-- Sampling the lines changes Cause's IP and the step number alone. -/
theorem changes_sampleIrq (s : State) : Changes {} s { s.sampleIrq with stepNo := s.stepNo } :=
  { Changes.refl {} s with }

/-- Settles O48: with every check passed, what is left of the step is `exec`. -/
theorem stepRunsDecoded : Obligations.StepRunsDecoded := by
  intro s i running unended quiet ha hm hd
  have fetched : fetchInstr s.sampleIrq = .ok i := fetchInstr_of_decode (s := s.sampleIrq) (fetchWord_ok ha hm) hd
  exact ⟨step_of_fetched running (atEnd_sampleIrq unended) quiet fetched, changes_sampleIrq s, rfl, ip_causeWithIp _ _,
    kept_causeWithIp _ _, rfl, rfl, rfl, rfl, rfl⟩

/-- Settles O49: the three checks of the fetch, in their order. -/
theorem fetchExceptions : Obligations.FetchExceptions := by
  intro s running unended quiet takes
  have takes_of_stop {e : Exc} {info : Word} (h : fetchInstr s.sampleIrq = .error (.raise e info)) : takes e info :=
    ⟨_, step_of_unfetched running (atEnd_sampleIrq unended) quiet h, entered_takeException s.sampleIrq e info⟩
  refine ⟨fun ha => takes_of_stop ?_, fun ha hm => takes_of_stop ?_, fun ha hm hd => takes_of_stop ?_⟩
  · rw [fetchInstr, fetchWord_misaligned (s := s.sampleIrq) ha]
    rfl
  · rw [fetchInstr, fetchWord_unmapped (s := s.sampleIrq) ha hm]
    rfl
  · exact fetchInstr_reserved (s := s.sampleIrq) (fetchWord_ok ha hm) hd

theorem Exc.code_ne_zero {e : Exc} (h : e ≠ .int) : e.code ≠ 0 := by
  cases e with
  | int => exact absurd rfl h
  | _ => decide

theorem outcome_of_takeException {s : State} {e : Exc} {info : Word} (h : e ≠ .int) (pc : Word) (bd : Bool) (info' : Word) :
    (s.takeException e info).outcome ≠ .faulted 0 pc bd info' :=
  fun same => Exc.code_ne_zero h (by injection same)

/-- No instruction raises Int. -/
theorem outcome_of_exec {i : Instr} {s t : State} (running : s.outcome = .running) (h : exec i s = .next t) (pc : Word)
    (bd : Bool) (info : Word) : t.outcome ≠ .faulted 0 pc bd info := by
  have ends := exec_ends i s
  rw [h] at ends
  cases ends with
  | done u w => exact fun same => nomatch (w.outcome.trans running).symm.trans same
  | transfer u target w hd => exact fun same => nomatch (w.outcome.trans running).symm.trans same
  | raise e info' he => exact outcome_of_takeException he.2.1 pc bd info

/-- Settles O50: Int is raised by the interrupt check and by nothing else. -/
theorem interrupts : Obligations.Interrupts := by
  intro s running unended
  have condition := interruptCondition_sampleIrq s
  refine ⟨fun enabled low pending => ?_, fun disabled t h pc bd info => ?_⟩
  · have lines : s.sampleIrq.ip = s.irqNow := ip_causeWithIp _ _
    have taken := step_of_interrupt running (atEnd_sampleIrq unended) (condition.mpr ⟨enabled, low, pending⟩)
    rw [lines] at taken
    have entered := entered_takeException s.sampleIrq .int (s.irqNow.setWidth 32)
    exact ⟨_, taken, entered, entered.ip.trans lines⟩
  · have quiet : s.sampleIrq.interruptCondition ≠ true := by
      rw [Ne, condition]
      rintro ⟨enabled, low, pending⟩
      obtain off | high | masked := disabled
      · exact absurd (off.symm.trans enabled) (by decide)
      · exact absurd (high.symm.trans low) (by decide)
      · exact pending masked
    obtain ⟨-, hs⟩ | ⟨-, taken, -⟩ | ⟨-, -, ⟨i, -, hs⟩ | ⟨e, info', -, he, hs⟩⟩ := step_cases running
    · cases hs.symm.trans h
      exact fun same => nomatch same
    · exact absurd taken quiet
    · exact outcome_of_exec (s := s.sampleIrq) running (hs.symm.trans h) pc bd info
    · cases hs.symm.trans h
      exact outcome_of_takeException (by obtain rfl | rfl | rfl := he <;> decide) pc bd info

/-- Settles O51: the first check of a running machine, and the one before it. -/
theorem endOfRun : Obligations.EndOfRun := by
  refine fun s => ⟨fun running here outside => ?_, step_after_end⟩
  exact ⟨_, step_of_atEnd running ((atEnd_iff s.sampleIrq).mpr ⟨here, outside⟩), rfl, { Changes.refl {} s with }, rfl,
    kept_causeWithIp _ _, ip_causeWithIp _ _, rfl, rfl, rfl, outside⟩

end Sys2Proof.Machine
end

section
/-! PROOFS. The pseudo-instructions (`Obligations.PseudoExpansions`, O60): each word of an expansion runs as its own rule says,
and the effects of two words are put together. -/

namespace Sys2Proof.Machine

theorem Changes.of_empty {what : Footprint} {s t : State} (h : Changes {} s t) : Changes what s t where
  gprs r _ := h.gprs r List.not_mem_nil
  fprs r _ := h.fprs r List.not_mem_nil
  hi _ := h.hi rfl
  lo _ := h.lo rfl
  fpcond _ := h.fpcond rfl
  link _ := h.link rfl
  draws _ := h.draws rfl
  bytes a _ := h.bytes a not_false
  memMap := h.memMap
  endPc := h.endPc
  irq := h.irq
  stepNo := h.stepNo

theorem Changes.trans {what : Footprint} {s t u : State} (h : Changes what s t) (k : Changes what t u) :
    Changes what s u where
  gprs r hr := (k.gprs r hr).trans (h.gprs r hr)
  fprs r hr := (k.fprs r hr).trans (h.fprs r hr)
  hi hw := (k.hi hw).trans (h.hi hw)
  lo hw := (k.lo hw).trans (h.lo hw)
  fpcond hw := (k.fpcond hw).trans (h.fpcond hw)
  link hw := ⟨(k.link hw).1.trans (h.link hw).1, (k.link hw).2.trans (h.link hw).2⟩
  draws hw := (k.draws hw).trans (h.draws hw)
  bytes a ha := (k.bytes a ha).trans (h.bytes a ha)
  memMap := k.memMap.trans h.memMap
  endPc := k.endPc.trans h.endPc
  irq := k.irq.trans h.irq
  stepNo := k.stepNo.trans h.stepNo

/-! ## A comparison and a branch on it (R221 to R224) -/

/-- A comparison into register 1, then a branch on that register. -/
theorem runList_compare {compare branch : Instr} {s : State} {flag taken : Bool} {imm : Half}
    (hc : Completes compare s { gprs := [atReg] } fun t => t.x atReg = if flag then 1 else 0)
    (hb : ∀ t : State, t.inDelay = false → t.x atReg = (if flag then 1 else 0) →
      Transfers branch t {} (if taken then BitVec.ofInt 32 (t.pc.toInt + 4 + 4 * imm.toInt) else t.npc + 4) fun _ => True) :
    ∃ u, runList [compare, branch] s = .next u ∧ Changes { gprs := [1] } s u ∧ u.pc = s.npc + 4 ∧ u.inDelay = true ∧
      u.npc = (if taken then BitVec.ofInt 32 (s.npc.toInt + 4 + 4 * imm.toInt) else s.npc + 8) ∧
      u.x 1 = if flag then 1 else 0 := by
  obtain ⟨t, compared, result, writes, -, straight⟩ := hc
  obtain ⟨u, branched, -, keeps, -, branch⟩ := hb t straight.inDelay result
  refine ⟨u, runList_pair compared branched, writes.trans keeps.of_empty, branch.pc.trans straight.npc, branch.inDelay, ?_,
    (keeps.gprs 1 List.not_mem_nil).trans result⟩
  rw [branch.npc, straight.pc, straight.npc, BitVec.add_assoc]
  rfl

theorem completes_slt (rs rt : RegNum) (s : State) :
    Completes (.slt rs rt atReg) s { gprs := [atReg] } fun t =>
      t.x atReg = if decide ((s.x rs).toInt < (s.x rt).toInt) then 1 else 0 := by
  simp only [decide_eq_true_eq]
  exact writesGpr_slt rs rt atReg s

/-- A register that holds the truth value of `flag` differs from register 0 exactly when `flag` is true. -/
theorem flag_ne_zero (s : State) (flag : Bool) (h : s.x atReg = if flag then 1 else 0) :
    decide (s.x atReg ≠ s.x 0) = flag := by
  have zero : s.x 0 = 0 := x_zero s
  rw [h, zero]
  cases flag <;> decide

theorem transfers_bne_flag {s : State} {flag : Bool} (imm : Half) (outside : s.inDelay = false)
    (h : s.x atReg = if flag then 1 else 0) :
    Transfers (.bne atReg 0 imm) s {} (if flag then BitVec.ofInt 32 (s.pc.toInt + 4 + 4 * imm.toInt) else s.npc + 4)
      fun _ => True := by
  have bne := (branches atReg 0 imm s outside).2.1
  rwa [flag_ne_zero s flag h] at bne

theorem transfers_beq_flag {s : State} {flag : Bool} (imm : Half) (outside : s.inDelay = false)
    (h : s.x atReg = if flag then 1 else 0) :
    Transfers (.beq atReg 0 imm) s {} (if !flag then BitVec.ofInt 32 (s.pc.toInt + 4 + 4 * imm.toInt) else s.npc + 4)
      fun _ => True := by
  have beq := (branches atReg 0 imm s outside).1
  have holds : decide (s.x atReg = s.x 0) = !flag := by
    rw [← flag_ne_zero s flag h, decide_not, Bool.not_not]
  rwa [holds] at beq

/-- An expansion of one instruction that writes a register. -/
theorem runList_one {i : Instr} {rd : RegNum} {value : State → Word} (h : WritesGpr i rd value) {s : State} {v : Word}
    (hv : value s = v) :
    ∃ t, runList [i] s = .next t ∧ t.x rd = afterWrite rd v ∧ Changes { gprs := [rd] } s t := by
  obtain ⟨t, done, written, writes, -⟩ := h s
  exact ⟨t, by simp [runList, done], hv ▸ written, writes⟩

/-! ## A 32-bit constant (R225) -/

theorem append_halves (v : Word) : (v.extractLsb' 16 16 ++ v.extractLsb' 0 16 : Word) = v := by
  apply BitVec.eq_of_getLsbD_eq
  intro i hi
  rw [BitVec.getLsbD_append, BitVec.getLsbD_extractLsb', BitVec.getLsbD_extractLsb']
  split_ifs with low
  · simp [low]
  · simp [show i - 16 < 16 by omega, Nat.add_sub_cancel' (not_lt.mp low)]

theorem ofInt_low_half {v : Word} (h : -32768 ≤ v.toInt ∧ v.toInt ≤ 32767) :
    BitVec.ofInt 32 (v.extractLsb' 0 16).toInt = v := by
  have low : (v.extractLsb' 0 16).toInt = v.toInt := by
    have bound := v.isLt
    simp only [BitVec.toInt_eq_toNat_cond, BitVec.extractLsb'_toNat, Nat.shiftRight_zero] at *
    omega
  rw [low, BitVec.ofInt_toInt]

theorem append_zero_or_zero_append (high low : Half) : (high ++ 0#16 ||| 0#16 ++ low : Word) = high ++ low :=
  BitVec.or_append.trans (congrArg₂ (· ++ ·) BitVec.or_zero BitVec.zero_or)

/-- The four expansions of `li` each write the value: sign-extended, zero-extended, shifted up, and by halves. -/
theorem runList_expandLi (rd : RegNum) (v : Word) (s : State) :
    ∃ t, runList (expandLi rd v) s = .next t ∧ t.x rd = afterWrite rd v ∧ Changes { gprs := [rd] } s t := by
  have zero : s.x 0 = 0#32 := x_zero s
  unfold expandLi
  split_ifs with fits high low
  · refine runList_one (writesGpr_addiu 0 rd (v.extractLsb' 0 16)) ?_
    rw [zero, BitVec.toInt_zero, Int.zero_add, ofInt_low_half fits]
  · refine runList_one (writesGpr_ori 0 rd (v.extractLsb' 0 16)) ?_
    exact (congrArg (· ||| _) zero).trans (BitVec.zero_or.trans ((congrArg (· ++ _) high.symm).trans (append_halves v)))
  · exact runList_one (writesGpr_lui rd (v.extractLsb' 16 16)) ((congrArg (_ ++ ·) low.symm).trans (append_halves v))
  · obtain ⟨t, first, upper, writes, -⟩ := writesGpr_lui rd (v.extractLsb' 16 16) s
    obtain ⟨u, second, both, again, -⟩ := writesGpr_ori rd rd (v.extractLsb' 0 16) t
    refine ⟨u, runList_pair first second, both.trans ?_, writes.trans again⟩
    simp only [upper, afterWrite]
    split_ifs with discarded
    · rfl
    · exact (append_zero_or_zero_append _ _).trans (append_halves v)

/-- Settles O60: the branches by the comparison and the branch on it, `li` by its four expansions, `move` as the sum with 0. -/
theorem pseudoExpansions : Obligations.PseudoExpansions := by
  intro rs rt rd imm v s a b branches
  have le_iff (m n : Int) : decide (m ≤ n) = !decide (n < m) := by
    rw [← decide_not, decide_eq_decide, not_lt]
  refine ⟨?blt, ?bgt, ?ble, ?bge, runList_expandLi rd v s, ?move⟩
  case blt => exact runList_compare (completes_slt rs rt s) fun t => transfers_bne_flag imm
  case bgt => exact runList_compare (completes_slt rt rs s) fun t => transfers_bne_flag imm
  case ble =>
    rw [le_iff]
    exact runList_compare (completes_slt rt rs s) fun t => transfers_beq_flag imm
  case bge =>
    rw [le_iff]
    exact runList_compare (completes_slt rs rt s) fun t => transfers_beq_flag imm
  case move =>
    have zero : s.x 0 = 0#32 := x_zero s
    refine runList_one (writesGpr_addu rs 0 rd) ?_
    rw [zero, BitVec.toNat_ofNat, Nat.zero_mod, Nat.add_zero, BitVec.ofNat_toNat, BitVec.setWidth_eq]

end Sys2Proof.Machine
end

section
/-! PROOFS. What the floating-point instructions write and leave: the arithmetic (`Obligations.FpArithmeticSingle`, O36,
`Obligations.FpArithmeticDouble`, O37), the unary operations and moves (`Obligations.FpUnaryAndMoves`, O38), the conversions to
an integer (`Obligations.FpToInteger`, O39) and the compares (`Obligations.FpCompares`, O42, `Obligations.MapOnlyCompares`, O43).
First the fields of a pattern as bits of its register, which the statements about values use too. -/

namespace Sys2Proof.Machine

/-! ## The fields of a pattern (R185, R186) -/

theorem expOf_single (w : Word) : Fmt.single.expOf w.toNat = (w.extractLsb' 23 8).toNat := by
  rw [BitVec.extractLsb'_toNat, Nat.shiftRight_eq_div_pow]
  rfl

theorem fracOf_single (w : Word) : Fmt.single.fracOf w.toNat = (w.extractLsb' 0 23).toNat := by
  rw [BitVec.extractLsb'_toNat, Nat.shiftRight_zero]
  rfl

theorem signOf_single (w : Word) : Fmt.single.signOf w.toNat = w.getLsbD 31 := by
  rw [BitVec.getLsbD, Nat.testBit_eq_decide_div_mod_eq]
  rfl

theorem expOf_double (w : Double) : Fmt.double.expOf w.toNat = (w.extractLsb' 52 11).toNat := by
  rw [BitVec.extractLsb'_toNat, Nat.shiftRight_eq_div_pow]
  rfl

theorem fracOf_double (w : Double) : Fmt.double.fracOf w.toNat = (w.extractLsb' 0 52).toNat := by
  rw [BitVec.extractLsb'_toNat, Nat.shiftRight_zero]
  rfl

theorem signOf_double (w : Double) : Fmt.double.signOf w.toNat = w.getLsbD 63 := by
  rw [BitVec.getLsbD, Nat.testBit_eq_decide_div_mod_eq]
  rfl

/-! ## A NaN from a draw (R188 (d)) -/

theorem classOf_nan {f : Fmt} {bits : Nat} (he : f.expOf bits = f.expMax) (hf : f.fracOf bits ≠ 0) :
    f.classOf bits = .nan := by
  have positive : f.expMax ≠ 0 := by cases f <;> decide
  rw [Fmt.classOf, if_neg (he ▸ positive), if_pos he, if_neg hf]

theorem classOf_nanSingle (w : Word) : Fmt.single.classOf (nanSingle w).toNat = .nan := by
  have exponent : (nanSingle w).extractLsb' 23 8 = 255#8 := by
    apply BitVec.eq_of_getLsbD_eq
    intro i hi
    rw [nanSingle, BitVec.getLsbD_extractLsb', BitVec.getLsbD_or, BitVec.getLsbD_or]
    interval_cases i <;> simp
  have fraction : (nanSingle w).extractLsb' 0 23 ≠ 0#23 := by
    rw [nanSingle, BitVec.extractLsb'_or, BitVec.extractLsb'_or]
    split_ifs with zero
    · rw [zero]
      decide
    · simpa using zero
  refine classOf_nan ?_ fun zero => fraction (BitVec.eq_of_toNat_eq ((fracOf_single _).symm.trans zero))
  rw [expOf_single, exponent]
  rfl

theorem classOf_nanDouble (v : Double) : Fmt.double.classOf (nanDouble v).toNat = .nan := by
  have exponent : (nanDouble v).extractLsb' 52 11 = 2047#11 := by
    apply BitVec.eq_of_getLsbD_eq
    intro i hi
    rw [nanDouble, BitVec.getLsbD_extractLsb', BitVec.getLsbD_or, BitVec.getLsbD_or]
    interval_cases i <;> simp
  have fraction : (nanDouble v).extractLsb' 0 52 ≠ 0#52 := by
    rw [nanDouble, BitVec.extractLsb'_or, BitVec.extractLsb'_or]
    split_ifs with zero
    · rw [zero]
      decide
    · simpa using zero
  refine classOf_nan ?_ fun zero => fraction (BitVec.eq_of_toNat_eq ((fracOf_double _).symm.trans zero))
  rw [expOf_double, exponent]
  rfl

/-! ## Delivering a result (R188 (d), R270) -/

theorem singleIs_putSingle (s : State) (fd : RegNum) (r : FpResult) : SingleIs r ((s.putSingle fd r).f fd) := by
  cases r with
  | bits n => exact setF_f_same s fd _
  | nan => exact (congrArg (fun w : Word => Fmt.single.classOf w.toNat) (setF_f_same s fd _)).trans (classOf_nanSingle _)

theorem doubleIs_putDouble (s : State) (fd : RegNum) (r : FpResult) : DoubleIs r ((s.putDouble fd r).d fd) := by
  cases r with
  | bits n => exact setD_d_same s fd _
  | nan => exact (congrArg (fun w : Double => Fmt.double.classOf w.toNat) (setD_d_same s fd _)).trans (classOf_nanDouble _)

theorem Changes.drawing {regs : List RegNum} {s t : State} (h : Changes { fprs := regs } s t) (n : Nat) :
    Changes { fprs := regs, draws := true } s (t.drawn n) :=
  { h with draws := fun unnamed => nomatch unnamed }

theorem Changes.weaken_draws {regs : List RegNum} {s t : State} (h : Changes { fprs := regs } s t) :
    Changes { fprs := regs, draws := true } s t := { h with draws := fun unnamed => nomatch unnamed }

theorem changes_putSingle (s : State) (fd : RegNum) (r : FpResult) :
    Changes { fprs := [fd], draws := true } s (s.putSingle fd r) := by
  cases r with
  | bits n => exact (changes_setF s fd _).weaken_draws
  | nan => exact (changes_setF s fd _).drawing 1

theorem changes_putDouble (s : State) (fd : RegNum) (r : FpResult) :
    Changes { fprs := [fd, fd + 1], draws := true } s (s.putDouble fd r) := by
  cases r with
  | bits n => exact (changes_setD s fd _).weaken_draws
  | nan => exact (changes_setD s fd _).drawing 1

theorem changes_putInt (s : State) (fd : RegNum) (r : Option Word) :
    Changes { fprs := [fd], draws := true } s (s.putInt fd r) := by
  cases r with
  | some v => exact (changes_setF s fd v).weaken_draws
  | none => exact (changes_setF s fd _).drawing 1

theorem completes_of_putSingle {i : Instr} {s : State} {fd : RegNum} {r : FpResult} (hx : exec i s = done (s.putSingle fd r)) :
    Completes i s { fprs := [fd], draws := true } fun t => SingleIs r (t.f fd) :=
  completes_of hx (singleIs_putSingle s fd r) (changes_putSingle s fd r) (by constructor <;> simp) (by simp)

theorem completes_of_putDouble {i : Instr} {s : State} {fd : RegNum} {r : FpResult} (hx : exec i s = done (s.putDouble fd r)) :
    Completes i s { fprs := [fd, fd + 1], draws := true } fun t => DoubleIs r (t.d fd) :=
  completes_of hx (doubleIs_putDouble s fd r) (changes_putDouble s fd r) (by constructor <;> simp) (by simp)

theorem completes_of_putInt {i : Instr} {s : State} {fd : RegNum} {r : Option Word} (hx : exec i s = done (s.putInt fd r)) :
    Completes i s { fprs := [fd], draws := true } fun t => ∀ n, r = some n → t.f fd = n :=
  completes_of hx (fun n hn => by subst hn; exact setF_f_same s fd n) (changes_putInt s fd r) (by constructor <;> simp)
    (by simp)

theorem Completes.weaken {i : Instr} {s : State} {what : Footprint} {p q : State → Prop} (h : Completes i s what p)
    (hpq : ∀ t, p t → q t) : Completes i s what q := by
  obtain ⟨t, hx, hp, rest⟩ := h
  exact ⟨t, hx, hpq t hp, rest⟩

/-! ## Even and odd registers (R32) -/

/-- All of these register numbers may name a double. -/
theorem evenOnly_pair {m n : RegNum} (hm : m.toNat % 2 = 0) (hn : n.toNat % 2 = 0) : evenOnly [m, n] = .ok () :=
  evenOnly_ok (by simp [namesDouble, hm, hn])

theorem evenOnly_triple {l m n : RegNum} (hl : l.toNat % 2 = 0) (hm : m.toNat % 2 = 0) (hn : n.toNat % 2 = 0) :
    evenOnly [l, m, n] = .ok () := evenOnly_ok (by simp [namesDouble, hl, hm, hn])

theorem withDoubles_even {ns : List RegNum} (h : evenOnly ns = .ok ()) (s t : State) : withDoubles ns s t = done t :=
  complete_map_ok h s _

theorem withDoubles_odd {ns : List RegNum} {n : RegNum} (mem : n ∈ ns) (odd : n.toNat % 2 = 1) (s t : State) :
    withDoubles ns s t = .refused .oddDoubleRegister := by
  have stops : evenOnly ns = .error (.refuse .oddDoubleRegister) :=
    evenOnly_odd (List.all_eq_false.mpr ⟨n, mem, by simp [namesDouble, odd]⟩)
  exact complete_map_error stops s _

/-! ## Arithmetic (R189 to R196) -/

/-- Settles O36: each delivers its result to `f[fd]`. -/
theorem fpArithmeticSingle : Obligations.FpArithmeticSingle := fun _ _ _ _ =>
  ⟨completes_of_putSingle rfl, completes_of_putSingle rfl, completes_of_putSingle rfl, completes_of_putSingle rfl⟩

/-- Settles O37: each delivers its result to `d[fd]` once its three register numbers are even. -/
theorem fpArithmeticDouble : Obligations.FpArithmeticDouble := by
  refine fun ft fs fd s => ⟨fun even_ft even_fs even_fd => ?_, fun odd => ?_⟩
  · have even := withDoubles_even (evenOnly_triple even_ft even_fs even_fd) s
    exact ⟨completes_of_putDouble (even _), completes_of_putDouble (even _), completes_of_putDouble (even _),
      completes_of_putDouble (even _)⟩
  · obtain ⟨n, mem, odd⟩ : ∃ n ∈ [ft, fs, fd], n.toNat % 2 = 1 := by simpa using odd
    have refuses := withDoubles_odd mem odd s
    simp only [List.forall_mem_cons]
    exact ⟨refuses _, refuses _, refuses _, refuses _, List.forall_mem_nil _⟩

/-! ## Unary operations and moves (R271 to R274, R279, R280) -/

theorem ofNat_mod_two_pow {n : Nat} (a : BitVec (n + 1)) :
    BitVec.ofNat (n + 1) (a.toNat % 2 ^ n) = a &&& BitVec.ofNat (n + 1) (2 ^ n - 1) := by
  apply BitVec.eq_of_toNat_eq
  have small : 2 ^ n - 1 < 2 ^ (n + 1) := by have := Nat.pow_lt_pow_succ (n := n) (a := 2) (by decide); omega
  rw [BitVec.toNat_and, BitVec.toNat_ofNat, BitVec.toNat_ofNat, Nat.mod_eq_of_lt small, Nat.and_two_pow_sub_one_eq_mod,
    Nat.mod_eq_of_lt ((Nat.mod_le _ _).trans_lt a.isLt)]

theorem ofNat_sign_inverted {n : Nat} (a : BitVec (n + 1)) :
    BitVec.ofNat (n + 1) ((if !a.getLsbD n then 2 ^ n else 0) + a.toNat % 2 ^ n) = a ^^^ BitVec.twoPow (n + 1) n := by
  apply BitVec.eq_of_getLsbD_eq
  intro i hi
  have top : (a.toNat % 2 ^ n).testBit n = false := Nat.testBit_lt_two_pow (Nat.mod_lt _ (by positivity))
  have low : i < n → (a.toNat % 2 ^ n).testBit i = a.getLsbD i := fun h => by
    rw [Nat.testBit_mod_two_pow, decide_eq_true h, Bool.true_and, BitVec.getLsbD]
  rw [BitVec.getLsbD_ofNat, BitVec.getLsbD_xor, BitVec.getLsbD_twoPow, decide_eq_true hi, Bool.true_and]
  obtain below | rfl := Nat.lt_succ_iff_lt_or_eq.mp hi
  · cases a.getLsbD n with
    | false => simp [Nat.testBit_two_pow_add_gt below, low below, below.ne']
    | true => simp [low below, below.ne']
  · cases sign : a.getLsbD i with
    | false => simp [Nat.testBit_two_pow_add_eq, top]
    | true => simp [top]

theorem singleIs_absBits {a w : Word} (h : SingleIs (Fmt.single.absBits a.toNat) w) :
    if Fmt.single.classOf a.toNat = .nan then Fmt.single.classOf w.toNat = .nan else w = a &&& 0x7FFFFFFF := by
  rw [Fmt.absBits] at h
  split_ifs at h ⊢ with nan
  · exact h
  · exact h.trans (ofNat_mod_two_pow (n := 31) a)

theorem singleIs_negBits {a w : Word} (h : SingleIs (Fmt.single.negBits a.toNat) w) :
    if Fmt.single.classOf a.toNat = .nan then Fmt.single.classOf w.toNat = .nan else w = a ^^^ 0x80000000 := by
  rw [Fmt.negBits, signOf_single] at h
  split_ifs at h ⊢ with nan
  · exact h
  · exact h.trans (ofNat_sign_inverted (n := 31) a)

theorem doubleIs_absBits {a w : Double} (h : DoubleIs (Fmt.double.absBits a.toNat) w) :
    if Fmt.double.classOf a.toNat = .nan then Fmt.double.classOf w.toNat = .nan else w = a &&& 0x7FFFFFFFFFFFFFFF := by
  rw [Fmt.absBits] at h
  split_ifs at h ⊢ with nan
  · exact h
  · exact h.trans (ofNat_mod_two_pow (n := 63) a)

theorem doubleIs_negBits {a w : Double} (h : DoubleIs (Fmt.double.negBits a.toNat) w) :
    if Fmt.double.classOf a.toNat = .nan then Fmt.double.classOf w.toNat = .nan else w = a ^^^ 0x8000000000000000 := by
  rw [Fmt.negBits, signOf_double] at h
  split_ifs at h ⊢ with nan
  · exact h
  · exact h.trans (ofNat_sign_inverted (n := 63) a)

theorem completes_of_setF {i : Instr} {s : State} {fd : RegNum} {v : Word} (hx : exec i s = done (s.setF fd v)) :
    Completes i s { fprs := [fd] } fun t => t.f fd = v :=
  completes_of hx (setF_f_same s fd v) (changes_setF s fd v) ⟨rfl, rfl, rfl⟩ rfl

theorem completes_of_setD {i : Instr} {s : State} {fd : RegNum} {v : Double} (hx : exec i s = done (s.setD fd v)) :
    Completes i s { fprs := [fd, fd + 1] } fun t => t.d fd = v :=
  completes_of hx (setD_d_same s fd v) (changes_setD s fd v) ⟨rfl, rfl, rfl⟩ rfl

/-- A move of a single that its condition may leave out. -/
theorem completes_of_setF_ite {i : Instr} {s : State} {fd : RegNum} {v : Word} (c : Prop) [Decidable c]
    (hx : exec i s = done (if c then s.setF fd v else s)) :
    Completes i s { fprs := [fd] } fun t => t.f fd = if c then v else s.f fd := by
  by_cases h : c
  · simp only [if_pos h] at hx ⊢
    exact completes_of_setF hx
  · simp only [if_neg h] at hx ⊢
    exact completes_of hx rfl (Changes.refl _ s) ⟨rfl, rfl, rfl⟩ rfl

/-- A move of a double that its condition may leave out. -/
theorem completes_of_setD_ite {i : Instr} {s : State} {fd : RegNum} {v : Double} (c : Prop) [Decidable c]
    (hx : exec i s = done (if c then s.setD fd v else s)) :
    Completes i s { fprs := [fd, fd + 1] } fun t => t.d fd = if c then v else s.d fd := by
  by_cases h : c
  · simp only [if_pos h] at hx ⊢
    exact completes_of_setD hx
  · simp only [if_neg h] at hx ⊢
    exact completes_of hx rfl (Changes.refl _ s) ⟨rfl, rfl, rfl⟩ rfl

/-- Settles O38: each delivers its result, the moves a copy, once the register numbers of doubles are even. -/
theorem fpUnaryAndMoves : Obligations.FpUnaryAndMoves := by
  refine fun rt fs fd s => ⟨?single, fun even_fs even_fd => ?double, fun odd => ?odd⟩
  case single =>
    refine ⟨completes_of_putSingle rfl, (completes_of_putSingle rfl).weaken fun _ => singleIs_absBits,
      (completes_of_putSingle rfl).weaken fun _ => singleIs_negBits, completes_of_setF rfl, completes_of_setF_ite _ rfl, ?movn⟩
    case movn => exact (completes_of_setF_ite (s.x rt ≠ 0) rfl).weaken fun t h => h.trans (ite_not _ _ _)
  case double =>
    have even := withDoubles_even (evenOnly_pair even_fs even_fd) s
    refine ⟨completes_of_putDouble (even _), Completes.weaken (completes_of_putDouble (even _)) fun _ => doubleIs_absBits,
      Completes.weaken (completes_of_putDouble (even _)) fun _ => doubleIs_negBits, completes_of_setD (even _),
      completes_of_setD_ite _ (even _), ?movn⟩
    case movn => exact Completes.weaken (completes_of_setD_ite (s.x rt ≠ 0) (even _)) fun t h => h.trans (ite_not _ _ _)
  case odd =>
    obtain ⟨n, mem, odd⟩ : ∃ n ∈ [fs, fd], n.toNat % 2 = 1 := by simpa using odd
    have refuses := withDoubles_odd mem odd s
    simp only [List.forall_mem_cons]
    exact ⟨refuses _, refuses _, refuses _, refuses _, refuses _, refuses _, List.forall_mem_nil _⟩

/-! ## Conversions to an integer (R275 to R278, R283) -/

/-- Settles O39: each delivers the integer to `f[fd]`, which may be odd. -/
theorem fpToInteger : Obligations.FpToInteger := by
  refine fun fs fd s => ⟨?single, fun even_fs => ?double, fun odd => ?odd⟩
  case single =>
    exact ⟨completes_of_putInt rfl, completes_of_putInt rfl, completes_of_putInt rfl, completes_of_putInt rfl,
      completes_of_putInt rfl⟩
  case double =>
    have even := withDoubles_even (evenOnly_even even_fs) s
    exact ⟨completes_of_putInt (even _), completes_of_putInt (even _), completes_of_putInt (even _),
      completes_of_putInt (even _), completes_of_putInt (even _)⟩
  case odd =>
    have refuses := withDoubles_odd (List.mem_singleton_self fs) odd s
    simp only [List.forall_mem_cons]
    exact ⟨refuses _, refuses _, refuses _, refuses _, refuses _, List.forall_mem_nil _⟩

/-! ## Compares (R197 to R203, R284 to R297) -/

theorem changes_setFpcond (s : State) (b : Bool) : Changes { fpcond := true } s (s.setFpcond b) :=
  { Changes.refl { fpcond := true } s with fpcond := fun unnamed => nomatch unnamed }

/-- The condition that `fpCondition` reads off the three bits, relation by relation. -/
theorem fpCondition_eq {cccc : BitVec 4} {holds : FpRelation → Bool} (less : cccc.getLsbD 2 = holds .less)
    (equal : cccc.getLsbD 1 = holds .equal) (unordered : cccc.getLsbD 0 = holds .unordered)
    (greater : false = holds .greater) (r : FpRelation) : fpCondition cccc r = holds r := by
  cases r with
  | less => exact less
  | equal => exact equal
  | greater => exact greater
  | unordered => exact unordered

theorem completes_of_putCond {i : Instr} {s : State} {cccc : BitVec 4} {r : FpRelation} {result : Bool}
    (hx : exec i s = done (s.putCond cccc r)) (condition : fpCondition cccc r = result) :
    Completes i s { fpcond := true } fun t => t.fpcond = result :=
  completes_of hx condition (changes_setFpcond s _) ⟨rfl, rfl, rfl⟩ rfl

theorem completes_of_compareSingle {i : Instr} {s : State} {ft fs : RegNum} {cccc : BitVec 4} {result : Bool}
    (hx : exec i s = compareSingle cccc ft fs s)
    (condition : fpCondition cccc (compareFp (single (s.f fs)) (single (s.f ft))) = result) :
    Completes i s { fpcond := true } fun t => t.fpcond = result :=
  completes_of_putCond hx condition

theorem completes_of_compareDouble {i : Instr} {s : State} {ft fs : RegNum} {cccc : BitVec 4} {result : Bool}
    (even : evenOnly [ft, fs] = .ok ()) (hx : exec i s = compareDouble cccc ft fs s)
    (condition : fpCondition cccc (compareFp (double (s.d fs)) (double (s.d ft))) = result) :
    Completes i s { fpcond := true } fun t => t.fpcond = result :=
  completes_of_putCond (hx.trans (complete_map_ok even s _)) condition

theorem compareDouble_odd {ft fs : RegNum} (odd : ft.toNat % 2 = 1 ∨ fs.toNat % 2 = 1) (cccc : BitVec 4) (s : State) :
    compareDouble cccc ft fs s = .refused .oddDoubleRegister := by
  obtain ⟨n, mem, odd⟩ : ∃ n ∈ [ft, fs], n.toNat % 2 = 1 := by simpa using odd
  exact withDoubles_odd mem odd s _

/-- Settles O42: the conditions 0010, 1100 and 1110, read as sets of relations. -/
theorem fpCompares : Obligations.FpCompares := by
  have eq (r : FpRelation) : fpCondition 0b0010 r = decide (r = .equal) :=
    fpCondition_eq (holds := fun r => decide (r = .equal)) rfl rfl rfl rfl r
  have lt (r : FpRelation) : fpCondition 0b1100 r = decide (r = .less) :=
    fpCondition_eq (holds := fun r => decide (r = .less)) rfl rfl rfl rfl r
  have le (r : FpRelation) : fpCondition 0b1110 r = decide (r = .less ∨ r = .equal) :=
    fpCondition_eq (holds := fun r => decide (r = .less ∨ r = .equal)) rfl rfl rfl rfl r
  refine fun ft fs s => ⟨?single, fun even_ft even_fs => ?double, fun odd => ?odd⟩
  case single =>
    exact ⟨completes_of_compareSingle rfl (eq _), completes_of_compareSingle rfl (lt _), completes_of_compareSingle rfl (le _)⟩
  case double =>
    have even := evenOnly_pair even_ft even_fs
    exact ⟨completes_of_compareDouble even rfl (eq _), completes_of_compareDouble even rfl (lt _),
      completes_of_compareDouble even rfl (le _)⟩
  case odd =>
    have refuses (cccc : BitVec 4) := compareDouble_odd odd cccc s
    simp only [List.forall_mem_cons]
    exact ⟨refuses _, refuses _, refuses _, List.forall_mem_nil _⟩

/-- Settles O43: the thirteen other conditions, likewise. -/
theorem mapOnlyCompares : Obligations.MapOnlyCompares := by
  intro ft fs s sets never un eq ueq lt ult le ule r q
  have cf (p : FpRelation) : fpCondition 0b0000 p = never p := fpCondition_eq rfl rfl rfl rfl p
  have cun (p : FpRelation) : fpCondition 0b0001 p = un p := fpCondition_eq rfl rfl rfl rfl p
  have cueq (p : FpRelation) : fpCondition 0b0011 p = ueq p := fpCondition_eq rfl rfl rfl rfl p
  have colt (p : FpRelation) : fpCondition 0b0100 p = lt p := fpCondition_eq rfl rfl rfl rfl p
  have cult (p : FpRelation) : fpCondition 0b0101 p = ult p := fpCondition_eq rfl rfl rfl rfl p
  have cole (p : FpRelation) : fpCondition 0b0110 p = le p := fpCondition_eq rfl rfl rfl rfl p
  have cule (p : FpRelation) : fpCondition 0b0111 p = ule p := fpCondition_eq rfl rfl rfl rfl p
  have csf (p : FpRelation) : fpCondition 0b1000 p = never p := fpCondition_eq rfl rfl rfl rfl p
  have cngle (p : FpRelation) : fpCondition 0b1001 p = un p := fpCondition_eq rfl rfl rfl rfl p
  have cseq (p : FpRelation) : fpCondition 0b1010 p = eq p := fpCondition_eq rfl rfl rfl rfl p
  have cngl (p : FpRelation) : fpCondition 0b1011 p = ueq p := fpCondition_eq rfl rfl rfl rfl p
  have cnge (p : FpRelation) : fpCondition 0b1101 p = ult p := fpCondition_eq rfl rfl rfl rfl p
  have cngt (p : FpRelation) : fpCondition 0b1111 p = ule p := fpCondition_eq rfl rfl rfl rfl p
  refine ⟨?single, fun even_ft even_fs => ?double, fun odd => ?odd⟩
  case single =>
    exact ⟨completes_of_compareSingle rfl (cf _), completes_of_compareSingle rfl (cun _),
      completes_of_compareSingle rfl (cueq _), completes_of_compareSingle rfl (colt _),
      completes_of_compareSingle rfl (cult _), completes_of_compareSingle rfl (cole _),
      completes_of_compareSingle rfl (cule _), completes_of_compareSingle rfl (csf _),
      completes_of_compareSingle rfl (cngle _), completes_of_compareSingle rfl (cseq _),
      completes_of_compareSingle rfl (cngl _), completes_of_compareSingle rfl (cnge _),
      completes_of_compareSingle rfl (cngt _)⟩
  case double =>
    have even := evenOnly_pair even_ft even_fs
    exact ⟨completes_of_compareDouble even rfl (cf _), completes_of_compareDouble even rfl (cun _),
      completes_of_compareDouble even rfl (cueq _), completes_of_compareDouble even rfl (colt _),
      completes_of_compareDouble even rfl (cult _), completes_of_compareDouble even rfl (cole _),
      completes_of_compareDouble even rfl (cule _), completes_of_compareDouble even rfl (csf _),
      completes_of_compareDouble even rfl (cngle _), completes_of_compareDouble even rfl (cseq _),
      completes_of_compareDouble even rfl (cngl _), completes_of_compareDouble even rfl (cnge _),
      completes_of_compareDouble even rfl (cngt _)⟩
  case odd =>
    have refuses (cccc : BitVec 4) := compareDouble_odd odd cccc s
    simp only [List.forall_mem_cons]
    exact ⟨refuses _, refuses _, refuses _, refuses _, refuses _, refuses _, refuses _, refuses _, refuses _, refuses _,
      refuses _, refuses _, refuses _, List.forall_mem_nil _⟩

end Sys2Proof.Machine
end

section
/-! PROOFS. Floating-point patterns as numbers: the classes and values of the patterns and the special operands
(`Obligations.FpSpecialValues`, O46), the order of the values (`Obligations.CompareRelation`, O44) and the integer a value
converts to (`Obligations.IntegerRounding`, O40). -/

namespace Sys2Proof.Machine

/-! ## The class and the value of a pattern by its fields (R185 to R187) -/

theorem Fmt.expMax_pos (f : Fmt) : 0 < f.expMax := by cases f <;> decide

theorem Fmt.bias_pos (f : Fmt) : 0 < f.bias := by cases f <;> decide

theorem classOf_low {f : Fmt} {bits : Nat} (he : f.expOf bits = 0) :
    f.classOf bits = if f.fracOf bits = 0 then .zero else .denorm := if_pos he

theorem classOf_top {f : Fmt} {bits : Nat} (he : f.expOf bits = f.expMax) :
    f.classOf bits = if f.fracOf bits = 0 then .infinity else .nan := by
  rw [Fmt.classOf, if_neg (he ▸ f.expMax_pos.ne'), if_pos he]

theorem classOf_normal {f : Fmt} {bits : Nat} (low : f.expOf bits ≠ 0) (top : f.expOf bits ≠ f.expMax) :
    f.classOf bits = .normal := by rw [Fmt.classOf, if_neg low, if_neg top]

/-- The number of units that the fields Exponent (not the largest) and Fraction stand for. -/
def Fmt.units (f : Fmt) (e frac : Nat) : Nat := if e = 0 then frac else (2 ^ f.fracBits + frac) * 2 ^ (e - 1)

theorem value_top {f : Fmt} {bits : Nat} (he : f.expOf bits = f.expMax) :
    f.value bits = if f.fracOf bits = 0 then .inf (f.signOf bits) else .nan := by
  rw [Fmt.value, classOf_top he]
  split_ifs <;> rfl

theorem value_finite {f : Fmt} {bits : Nat} (he : f.expOf bits ≠ f.expMax) :
    f.value bits = .fin (f.signOf bits) (f.units (f.expOf bits) (f.fracOf bits)) := by
  by_cases low : f.expOf bits = 0
  · rw [Fmt.value, classOf_low low, Fmt.units, if_pos low]
    split_ifs with zero
    · rw [zero]
    · rfl
  · rw [Fmt.value, classOf_normal low he, Fmt.units, if_neg low]

/-- The formula of R185 and R186 in units of the format: `0.Fraction * 2^(1 - Bias)` of a denormal, `1.Fraction *
2^(Exponent - Bias)` of a normal pattern. -/
theorem units_div (f : Fmt) (e frac : Nat) :
    (f.units e frac : ℚ) / 2 ^ f.unitExp =
      if e = 0 then (frac : ℚ) / 2 ^ f.fracBits * 2 ^ (1 - (f.bias : ℤ))
      else (1 + (frac : ℚ) / 2 ^ f.fracBits) * 2 ^ ((e : ℤ) - f.bias) := by
  have two : (2 : ℚ) ≠ 0 := two_ne_zero
  have positive := f.bias_pos
  have unit : (2 : ℚ) ^ f.unitExp = 2 ^ f.fracBits * (2 ^ (1 - (f.bias : ℤ)))⁻¹ := by
    rw [← zpow_neg, ← zpow_natCast, ← zpow_natCast, ← zpow_add₀ two]
    congr 1
    rw [Fmt.unitExp]
    omega
  rw [unit, Fmt.units]
  split_ifs with low
  · field_simp
  · have exponent : (2 : ℚ) ^ ((e : ℤ) - f.bias) = 2 ^ (e - 1) * 2 ^ (1 - (f.bias : ℤ)) := by
      rw [← zpow_natCast, ← zpow_add₀ two]
      congr 1
      omega
    rw [exponent]
    push_cast
    field_simp

/-! ## The order of the values (R203, R297) -/

theorem relationOf_less (m n : Int) : relationOf m n = .less ↔ m < n := by grind [relationOf]

theorem relationOf_equal (m n : Int) : relationOf m n = .equal ↔ m = n := by grind [relationOf]

theorem relationOf_greater (m n : Int) : relationOf m n = .greater ↔ n < m := by grind [relationOf]

theorem relationOf_ordered (m n : Int) : relationOf m n ≠ .unordered := by grind [relationOf]

theorem compareFp_unordered (a b : FpVal) : compareFp a b = .unordered ↔ a = .nan ∨ b = .nan := by
  cases a with
  | nan => cases b <;> simp [compareFp]
  | inf => cases b <;> simp [compareFp, relationOf_ordered]
  | fin => cases b <;> simp [compareFp, relationOf_ordered]

theorem rat_eq_some {f : Fmt} {v : FpVal} {q : ℚ} (h : v.rat f = some q) :
    ∃ neg mag, v = .fin neg mag ∧ q = (signed neg mag : ℚ) / 2 ^ f.unitExp := by
  cases v with
  | fin neg mag => exact ⟨neg, mag, rfl, (Option.some.inj h).symm⟩
  | nan => cases h
  | inf neg => cases h

/-- The unit of a format is positive, so numbers of units are in the order of the numbers. -/
theorem compareFp_fin (f : Fmt) (a b : Bool) (m n : Nat) :
    let p : ℚ := signed a m / 2 ^ f.unitExp
    let q : ℚ := signed b n / 2 ^ f.unitExp
    (compareFp (.fin a m) (.fin b n) = .less ↔ p < q) ∧ (compareFp (.fin a m) (.fin b n) = .equal ↔ p = q) ∧
      (compareFp (.fin a m) (.fin b n) = .greater ↔ q < p) := by
  intro p q
  have unit : (0 : ℚ) < 2 ^ f.unitExp := by positivity
  refine ⟨(relationOf_less _ _).trans ?_, (relationOf_equal _ _).trans ?_, (relationOf_greater _ _).trans ?_⟩
  · rw [div_lt_div_iff_of_pos_right unit, Int.cast_lt]
  · rw [div_left_inj' unit.ne', Int.cast_inj]
  · rw [div_lt_div_iff_of_pos_right unit, Int.cast_lt]

/-- Settles O44: of two finite values, by their numbers of units; the infinities by their signs. -/
theorem compareRelation : Obligations.CompareRelation := by
  refine fun f a b => ⟨compareFp_unordered a b, fun p q ha hb => ?_, fun q hb => ?_, rfl, rfl, fun neg => ?_⟩
  · obtain ⟨na, m, rfl, rfl⟩ := rat_eq_some ha
    obtain ⟨nb, n, rfl, rfl⟩ := rat_eq_some hb
    exact compareFp_fin f na nb m n
  · obtain ⟨neg, mag, rfl, -⟩ := rat_eq_some hb
    exact ⟨rfl, rfl, rfl, rfl⟩
  · cases neg <;> rfl

/-! ## Rounding to an integer (R270 (c), R275 to R278) -/

/-- `num / den` to the nearest integer: at most half away, and on a tie even. -/
theorem nearestEven_spec (num : Nat) {den : Nat} (hd : 0 < den) :
    2 * num ≤ (2 * nearestEven num den + 1) * den ∧ 2 * nearestEven num den * den ≤ 2 * num + den ∧
      (2 * num = (2 * nearestEven num den + 1) * den ∨ 2 * nearestEven num den * den = 2 * num + den →
        nearestEven num den % 2 = 0) := by
  have division := Nat.div_add_mod' num den
  have remainder := Nat.mod_lt num hd
  unfold nearestEven
  generalize num / den = q at *
  generalize num % den = r at *
  subst division
  simp only
  split_ifs with below above
  · simp only [Nat.add_mul, Nat.mul_assoc]
    omega
  · simp only [Nat.mul_add, Nat.add_mul, Nat.mul_assoc]
    omega
  · obtain even | odd := Nat.mod_two_eq_zero_or_one q
    · simp only [even, Nat.add_mul, Nat.mul_assoc]
      omega
    · simp only [odd, Nat.mul_add, Nat.add_mul, Nat.mul_assoc]
      omega

/-- The same over a field: `nearestEven` is a nearest integer, the even one on a tie. -/
theorem nearestEven_near (K : Type) [Field K] [LinearOrder K] [IsStrictOrderedRing K] (num : Nat) {den : Nat} (hd : 0 < den) :
    |(num : K) / den - nearestEven num den| ≤ 1 / 2 ∧
      (|(num : K) / den - nearestEven num den| = 1 / 2 → nearestEven num den % 2 = 0) := by
  obtain ⟨upper, lower, tie⟩ := nearestEven_spec num hd
  generalize nearestEven num den = n at *
  have positive : (0 : K) < den := Nat.cast_pos.mpr hd
  have product : (num : K) / den * den = num := div_mul_cancel₀ _ positive.ne'
  generalize (num : K) / den = x at *
  have upper' : (2 * num : K) ≤ (2 * n + 1) * den := by exact_mod_cast upper
  have lower' : (2 * n * den : K) ≤ 2 * num + den := by exact_mod_cast lower
  have below : 2 * x ≤ 2 * n + 1 := le_of_mul_le_mul_right (by linarith) positive
  have above : (2 * n : K) ≤ 2 * x + 1 := le_of_mul_le_mul_right (by linarith) positive
  refine ⟨abs_le.mpr ⟨by linarith, by linarith⟩, fun half => tie ?_⟩
  obtain high | low := (abs_eq (by norm_num)).mp half
  · left
    have : (2 * num : K) = (2 * n + 1) * den := by
      rw [← product, ← mul_assoc, show 2 * x = 2 * n + 1 by linarith]
    exact_mod_cast this
  · right
    have : (2 * n * den : K) = 2 * num + den := by
      rw [← product, show (2 * n : K) = 2 * x + 1 by linarith]
      ring
    exact_mod_cast this

theorem nearestEven_zero {den : Nat} (hd : 0 < den) : nearestEven 0 den = 0 := by
  rw [nearestEven, Nat.zero_div, Nat.zero_mod, if_pos (by omega)]

theorem floor_div (num : Nat) {den : Nat} : ⌊(num : ℚ) / den⌋ = (num / den : Nat) := by
  rw [← Nat.floor_div_eq_div (K := ℚ), Int.natCast_floor_eq_floor (by positivity)]

/-- The quotient rounded up. -/
theorem ceil_div (num : Nat) {den : Nat} (hd : 0 < den) : ⌈(num : ℚ) / den⌉ = ((num + den - 1) / den : Nat) := by
  have positive : (0 : ℚ) < den := Nat.cast_pos.mpr hd
  rw [Int.ceil_eq_iff, lt_div_iff₀ positive, div_le_iff₀ positive]
  have division := Nat.div_add_mod' (num + den - 1) den
  have remainder := Nat.mod_lt (num + den - 1) hd
  generalize (num + den - 1) / den = q at *
  constructor
  · have : (q * den : ℚ) < num + den := by exact_mod_cast (by omega : q * den < num + den)
    push_cast
    linarith
  · exact_mod_cast (by omega : num ≤ q * den)

theorem signed_div (neg : Bool) (num den : Nat) :
    (signed neg num : ℚ) / den = if neg then -((num : ℚ) / den) else (num : ℚ) / den := by
  cases neg <;> simp [signed, neg_div]

/-- The rounding of a signed quotient in each direction. -/
theorem rounded_toInt (mode : Rounding) (neg : Bool) (num : Nat) {den : Nat} (hd : 0 < den) :
    Rounded mode ((signed neg num : ℚ) / den) (mode.toInt neg num den) := by
  have floor := floor_div num (den := den)
  have ceil := ceil_div num hd
  have nonneg : (0 : ℚ) ≤ (num : ℚ) / den := by positivity
  rw [signed_div]
  cases mode with
  | nearestEven =>
    obtain ⟨near, tie⟩ := nearestEven_near ℚ num hd
    have near : |(num : ℚ) / den - (nearestEven num den : ℤ)| ≤ 1 / 2 := by rwa [Int.cast_natCast]
    have even : |(num : ℚ) / den - (nearestEven num den : ℤ)| = 1 / 2 → (nearestEven num den : ℤ) % 2 = 0 := fun half => by
      have := tie (by rwa [Int.cast_natCast] at half)
      omega
    cases neg with
    | false => exact ⟨near, even⟩
    | true =>
      have flip : |-((num : ℚ) / den) - (-(nearestEven num den : ℤ) : ℤ)| = |(num : ℚ) / den - (nearestEven num den : ℤ)| := by
        rw [Int.cast_neg, neg_sub_neg, abs_sub_comm]
      refine ⟨flip.trans_le near, fun half => ?_⟩
      have := even (flip.symm.trans half)
      change -(nearestEven num den : ℤ) % 2 = 0
      omega
  | towardZero =>
    cases neg with
    | false => exact floor.symm.trans (if_pos nonneg).symm
    | true =>
      change -((num / den : Nat) : ℤ) = if 0 ≤ -((num : ℚ) / den) then ⌊-((num : ℚ) / den)⌋ else ⌈-((num : ℚ) / den)⌉
      split_ifs with nonpos
      · have zero : (num : ℚ) / den = 0 := by linarith
        rw [← floor, zero, neg_zero, Int.floor_zero, neg_zero]
      · rw [Int.ceil_neg, floor]
  | towardPlus => cases neg <;> simp [Rounded, Rounding.toInt, signed, floor, ceil, Int.ceil_neg]
  | towardMinus => cases neg <;> simp [Rounded, Rounding.toInt, signed, floor, ceil, Int.floor_neg]

theorem toInt_zero (mode : Rounding) (neg : Bool) {den : Nat} (hd : 0 < den) : mode.toInt neg 0 den = 0 := by
  have up : (0 + den - 1) / den = 0 := Nat.div_eq_of_lt (by omega)
  have none (b : Bool) : signed b 0 = 0 := by cases b <;> rfl
  simp only [Rounding.toInt, up, Nat.zero_div, nearestEven_zero hd, ite_self, none]
  cases mode <;> rfl

/-- Settles O40: the integer of a finite value is `Rounding.toInt` of it, whether it is zero or not. -/
theorem integerRounding : Obligations.IntegerRounding := by
  refine fun f mode v => ⟨fun h => ?_, fun q h => ?_⟩
  · cases v with
    | fin neg mag => cases h
    | nan => rfl
    | inf neg => rfl
  · obtain ⟨neg, mag, rfl, rfl⟩ := rat_eq_some h
    have unit : 0 < 2 ^ f.unitExp := by positivity
    have rounded := rounded_toInt mode neg mag unit
    push_cast at rounded
    refine ⟨_, rounded, ?_⟩
    have zero : (if mag = 0 then 0 else mode.toInt neg mag (2 ^ f.unitExp)) = mode.toInt neg mag (2 ^ f.unitExp) := by
      split_ifs with h0
      · rw [h0, toInt_zero mode neg unit]
      · rfl
    rw [Fmt.toInt32, zero]

/-! ## The two formats, and the special operands (R185 to R188) -/

/-- What R185 to R187 say of the pattern `bits` of a format. -/
theorem pattern_reads (f : Fmt) (bits : Nat) :
    (f.expOf bits = 0 → f.classOf bits = if f.fracOf bits = 0 then .zero else .denorm) ∧
    (f.expOf bits = f.expMax → f.classOf bits = if f.fracOf bits = 0 then .infinity else .nan) ∧
    (0 < f.expOf bits → f.expOf bits < f.expMax → f.classOf bits = .normal) ∧
    (f.expOf bits = f.expMax → f.value bits = if f.fracOf bits = 0 then .inf (f.signOf bits) else .nan) ∧
    (f.expOf bits < f.expMax → ∃ m, f.value bits = .fin (f.signOf bits) m ∧ (m : ℚ) / 2 ^ f.unitExp =
      if f.expOf bits = 0 then (f.fracOf bits : ℚ) / 2 ^ f.fracBits * 2 ^ (1 - (f.bias : ℤ))
      else (1 + (f.fracOf bits : ℚ) / 2 ^ f.fracBits) * 2 ^ ((f.expOf bits : ℤ) - f.bias)) :=
  ⟨classOf_low, classOf_top, fun low top => classOf_normal low.ne' top.ne, value_top,
    fun top => ⟨_, value_finite top.ne, units_div f _ _⟩⟩

theorem signed_not (a : Bool) (m : Nat) : signed (!a) m = -signed a m := by cases a <;> simp [signed]

theorem add_fin (f : Fmt) (a b : Bool) (m n : Nat) : f.add (.fin a m) (.fin b n) =
    if signed a m + signed b n = 0 then f.pattern (a && b) 0
    else f.pattern (decide (signed a m + signed b n < 0)) (f.roundMag (signed a m + signed b n).natAbs 1) := rfl

theorem sub_fin (f : Fmt) (a b : Bool) (m n : Nat) : f.sub (.fin a m) (.fin b n) =
    if signed a m - signed b n = 0 then f.pattern (a && !b) 0
    else f.pattern (decide (signed a m - signed b n < 0)) (f.roundMag (signed a m - signed b n).natAbs 1) := by
  rw [sub_eq_add_neg, ← signed_not]
  rfl

theorem roundMag_zero (f : Fmt) (den : Nat) : f.roundMag 0 den = 0 := rfl

theorem div_fin (f : Fmt) (a b : Bool) (m : Nat) {n : Nat} (hn : 0 < n) :
    f.div (.fin a m) (.fin b n) = f.pattern (a != b) (f.roundMag (m * 2 ^ f.unitExp) n) := by
  rw [Fmt.div, if_neg hn.ne']
  split_ifs with zero
  · rw [zero, Nat.zero_mul, roundMag_zero]
  · rfl

/-- Settles O46: the fields of each format's patterns, then the four operations operand by operand. -/
theorem fpSpecialValues : Obligations.FpSpecialValues := by
  refine ⟨fun w => ?single, fun w => ?double, fun a p => ⟨rfl, rfl, ?patternS, ?patternD⟩,
    fun f a b m n v => ⟨?nan, ?invalid, ?infinite, fun positive => ?positive, ?zeros, ?add, ?sub, rfl, fun hn => div_fin f a b m hn⟩⟩
  case single =>
    have fields := pattern_reads .single w.toNat
    rw [expOf_single, fracOf_single, signOf_single] at fields
    exact fields
  case double =>
    have fields := pattern_reads .double w.toNat
    rw [expOf_double, fracOf_double, signOf_double] at fields
    exact fields
  case patternS => cases a <;> rfl
  case patternD => cases a <;> rfl
  case nan => cases v <;> exact ⟨rfl, rfl, rfl, rfl, rfl, rfl, rfl, rfl⟩
  case invalid =>
    refine ⟨?_, ?_, rfl, rfl, rfl, rfl⟩
    · exact if_neg (by cases a <;> decide)
    · exact if_neg (by cases a <;> decide)
  case infinite =>
    refine ⟨if_pos rfl, if_pos (by simp), rfl, rfl, rfl, rfl, rfl, rfl, rfl⟩
  case positive =>
    refine ⟨if_neg positive.ne', ?_, ?_, ?_⟩
    · exact (if_neg positive.ne').trans (congrArg f.infinity (bne_comm (a := b) (b := a)))
    · rw [Fmt.div, if_pos rfl, if_neg positive.ne']
    · rw [add_fin, signed_not]
      cases a <;> simp
  case zeros =>
    refine ⟨?_, ?_, ?_, ?_⟩
    · rw [sub_fin]
      cases a <;> simp
    · cases a <;> rfl
    · cases a <;> rfl
    · cases a <;> rfl
  case add => exact fun nonzero => (add_fin f a b m n).trans (if_neg nonzero)
  case sub => exact fun nonzero => (sub_fin f a b m n).trans (if_neg nonzero)

end Sys2Proof.Machine
end

section
/-! PROOFS. Rounding to a format: it picks a nearest representable value (`Obligations.RoundsToNearestEven`, O45), and what is
representable it keeps, so that a single becomes a double exactly (`Obligations.FpBetweenFormats`, O41). A pattern without its
sign counts the values of the format in their order; `Fmt.magnitude` is that count's value, continued past the largest finite
pattern, so that rounding is first looked at with no largest Exponent. -/

namespace Sys2Proof.Machine

/-! ## The values of a format, in their order -/

/-- The number of units the `p`-th value of the format is, with no largest Exponent. -/
def Fmt.magnitude (f : Fmt) (p : Nat) : Nat := f.units (p / 2 ^ f.fracBits) (p % 2 ^ f.fracBits)

theorem units_zero (f : Fmt) (frac : Nat) : f.units 0 frac = frac := if_pos rfl

theorem units_succ (f : Fmt) (k frac : Nat) : f.units (k + 1) frac = (2 ^ f.fracBits + frac) * 2 ^ k := if_neg (by omega)

/-- `n` quanta of `2^k` units, when `n` has no more bits than the format keeps, or is the first number with one more. -/
theorem magnitude_quanta (f : Fmt) {k n : Nat} (h : k = 0 ∨ 2 ^ f.fracBits ≤ n) (hn : n ≤ 2 * 2 ^ f.fracBits) :
    f.magnitude (k * 2 ^ f.fracBits + n) = n * 2 ^ k := by
  have positive : 0 < 2 ^ f.fracBits := by positivity
  unfold Fmt.magnitude
  obtain denormal | normal := Nat.lt_or_ge n (2 ^ f.fracBits)
  · obtain rfl | large := h
    · rw [Nat.zero_mul, Nat.zero_add, Nat.div_eq_of_lt denormal, Nat.mod_eq_of_lt denormal, units_zero, Nat.pow_zero,
        Nat.mul_one]
    · omega
  · obtain ⟨d, rfl⟩ := Nat.exists_eq_add_of_le normal
    obtain inside | rfl := Nat.lt_or_eq_of_le (show d ≤ 2 ^ f.fracBits by omega)
    · have fields : k * 2 ^ f.fracBits + (2 ^ f.fracBits + d) = d + 2 ^ f.fracBits * (k + 1) := by ring
      rw [fields, Nat.add_mul_div_left _ _ positive, Nat.add_mul_mod_self_left, Nat.div_eq_of_lt inside, Nat.zero_add,
        Nat.mod_eq_of_lt inside, units_succ]
    · have fields : k * 2 ^ f.fracBits + (2 ^ f.fracBits + 2 ^ f.fracBits) = 2 ^ f.fracBits * (k + 2) := by ring
      rw [fields, Nat.mul_div_cancel_left _ positive, Nat.mul_mod_right, units_succ]
      ring

/-- Every value is less than `2 * 2^fracBits` quanta of its Exponent. -/
theorem exists_quanta (f : Fmt) (p : Nat) :
    ∃ k n, p = k * 2 ^ f.fracBits + n ∧ (k = 0 ∨ 2 ^ f.fracBits ≤ n) ∧ n < 2 * 2 ^ f.fracBits := by
  have division := Nat.div_add_mod' p (2 ^ f.fracBits)
  have remainder := Nat.mod_lt p (show 0 < 2 ^ f.fracBits by positivity)
  cases he : p / 2 ^ f.fracBits with
  | zero => exact ⟨0, p % 2 ^ f.fracBits, by rw [he] at division; omega, .inl rfl, by omega⟩
  | succ k =>
    refine ⟨k, 2 ^ f.fracBits + p % 2 ^ f.fracBits, ?_, .inr (by omega), by omega⟩
    rw [he, Nat.add_mul, Nat.one_mul] at division
    omega

theorem magnitude_strictMono (f : Fmt) : StrictMono f.magnitude := by
  refine strictMono_nat_of_lt_succ fun p => ?_
  obtain ⟨k, n, rfl, h, hn⟩ := exists_quanta f p
  rw [magnitude_quanta f h hn.le, Nat.add_assoc, magnitude_quanta f (h.imp_right fun hle => by omega) hn]
  exact Nat.mul_lt_mul_of_pos_right n.lt_succ_self (by positivity)

/-- The values that are no whole number of quanta lie below those of that quantum's Exponent. -/
theorem dvd_magnitude_or_lt (f : Fmt) (k p : Nat) :
    2 ^ k ∣ f.magnitude p ∨ (k ≠ 0 ∧ f.magnitude p < 2 ^ f.fracBits * 2 ^ k) := by
  obtain ⟨j, n, rfl, h, hn⟩ := exists_quanta f p
  rw [magnitude_quanta f h hn.le]
  obtain fine | coarse := Nat.lt_or_ge j k
  · refine .inr ⟨by omega, ?_⟩
    calc n * 2 ^ j < 2 * 2 ^ f.fracBits * 2 ^ j := Nat.mul_lt_mul_of_pos_right hn (by positivity)
      _ = 2 ^ f.fracBits * 2 ^ (j + 1) := by ring
      _ ≤ 2 ^ f.fracBits * 2 ^ k := Nat.mul_le_mul_left _ (Nat.pow_le_pow_right (by decide) fine)
  · exact .inl (Dvd.dvd.mul_left (Nat.pow_dvd_pow 2 coarse) n)

/-! ## The finite patterns and their values -/

theorem signWeight_eq (f : Fmt) : f.signWeight = 2 ^ f.fracBits * 2 ^ f.expBits := by
  rw [Fmt.signWeight, Nat.pow_add, Nat.mul_comm]

theorem infMag_lt_signWeight (f : Fmt) : f.infMag < f.signWeight := by cases f <;> decide

/-- The fields of a pattern with sign `neg`. -/
theorem fields_of_pattern (f : Fmt) (neg : Bool) {p : Nat} (h : p < f.signWeight) :
    f.signOf ((if neg then f.signWeight else 0) + p) = neg ∧
      f.expOf ((if neg then f.signWeight else 0) + p) = p / 2 ^ f.fracBits ∧
      f.fracOf ((if neg then f.signWeight else 0) + p) = p % 2 ^ f.fracBits := by
  have positive : 0 < 2 ^ f.fracBits := by positivity
  have small : p / 2 ^ f.fracBits < 2 ^ f.expBits := Nat.div_lt_of_lt_mul (by rwa [signWeight_eq] at h)
  unfold Fmt.signOf Fmt.expOf Fmt.fracOf
  cases neg with
  | false =>
    rw [if_neg Bool.false_ne_true, Nat.zero_add, Nat.div_eq_of_lt h, Nat.mod_eq_of_lt small]
    exact ⟨rfl, rfl, rfl⟩
  | true =>
    rw [if_pos rfl, Nat.add_comm, Nat.add_div_right _ (Nat.zero_lt_of_lt h), Nat.div_eq_of_lt h]
    rw [signWeight_eq, Nat.add_mul_div_left _ _ positive, Nat.add_mul_mod_self_left, Nat.add_mod_right, Nat.mod_eq_of_lt small]
    exact ⟨rfl, rfl, rfl⟩

theorem value_of_lt (f : Fmt) (neg : Bool) {p : Nat} (h : p < f.infMag) :
    f.value ((if neg then f.signWeight else 0) + p) = .fin neg (f.magnitude p) := by
  obtain ⟨sign, exponent, fraction⟩ := fields_of_pattern f neg (h.trans (infMag_lt_signWeight f))
  have finite : p / 2 ^ f.fracBits ≠ f.expMax := (Nat.div_lt_of_lt_mul (by rwa [Nat.mul_comm])).ne
  rw [value_finite (exponent ▸ finite), sign, exponent, fraction]
  rfl

theorem value_infMag (f : Fmt) (neg : Bool) : f.value ((if neg then f.signWeight else 0) + f.infMag) = .inf neg := by
  obtain ⟨sign, exponent, fraction⟩ := fields_of_pattern f neg (infMag_lt_signWeight f)
  have positive : 0 < 2 ^ f.fracBits := by positivity
  have top : f.infMag / 2 ^ f.fracBits = f.expMax := Nat.mul_div_cancel _ positive
  have zero : f.infMag % 2 ^ f.fracBits = 0 := Nat.mul_mod_left _ _
  rw [value_top (exponent.trans top), fraction, zero, if_pos rfl, sign]

/-- The finite values are the magnitudes below the pattern of infinity. -/
theorem exists_magnitude {f : Fmt} {bits m : Nat} {neg : Bool} (h : f.value bits = .fin neg m) :
    ∃ p, p < f.infMag ∧ f.magnitude p = m := by
  have finite : f.expOf bits ≠ f.expMax := fun top => by
    rw [value_top top] at h
    split_ifs at h
  have below : f.expOf bits < f.expMax := by
    have bound : 2 ^ f.expBits = f.expMax + 1 := by cases f <;> rfl
    have width : f.expOf bits < f.expMax + 1 := (Nat.mod_lt _ (by positivity)).trans_eq bound
    exact lt_of_le_of_ne (Nat.le_of_lt_succ width) finite
  have exponent : bits % f.signWeight / 2 ^ f.fracBits = f.expOf bits := by
    rw [signWeight_eq, Nat.mod_mul_right_div_self]
    rfl
  have fraction : bits % f.signWeight % 2 ^ f.fracBits = f.fracOf bits := by
    rw [signWeight_eq, Nat.mod_mul_right_mod]
    rfl
  refine ⟨bits % f.signWeight, (Nat.div_lt_iff_lt_mul (by positivity)).mp (exponent.trans_lt below), ?_⟩
  rw [Fmt.magnitude, exponent, fraction]
  rw [value_finite finite] at h
  exact (FpVal.fin.inj h).2

/-! ## A nearest multiple of the quantum -/

section
variable {K : Type} [Field K] [LinearOrder K] [IsStrictOrderedRing K]

/-- No multiple of the quantum `u` is nearer to `y` than one at most half a quantum away; another as near is on the other
side of a tie. -/
theorem near_of_multiple {y u : K} {n : Nat} (hu : 0 < u) (near : |(n : K) * u - y| ≤ u / 2) (c : Nat) :
    |(n : K) * u - y| ≤ |c * u - y| ∧ (|(n : K) * u - y| = |c * u - y| → c ≠ n → |(n : K) * u - y| = u / 2) := by
  by_cases same : c = n
  · exact ⟨by rw [same], fun _ other => absurd same other⟩
  · have apart : (1 : K) ≤ |(c : K) - n| := by
      have : (1 : ℤ) ≤ |(c : ℤ) - n| := Int.one_le_abs (by omega)
      exact_mod_cast this
    have quantum : u ≤ |(c : K) * u - y| + |(n : K) * u - y| :=
      calc u ≤ |(c : K) - n| * u := le_mul_of_one_le_left hu.le apart
        _ = |((c : K) * u - y) - (n * u - y)| := by rw [sub_sub_sub_cancel_right, ← sub_mul, abs_mul, abs_of_pos hu]
        _ ≤ _ := abs_sub _ _
    exact ⟨by linarith, fun tie _ => by linarith⟩

/-- A number of quanta of `2^k` units that is nearest to `y` among the numbers of quanta is nearest among all values, when
`y` is as large as the Exponent of the quantum asks. -/
theorem near_of_quanta (f : Fmt) {y : K} {k n : Nat} (large : k = 0 ∨ 2 ^ f.fracBits * 2 ^ k ≤ y)
    (near : |(n : K) * 2 ^ k - y| ≤ 2 ^ k / 2) (p : Nat) :
    |(n : K) * 2 ^ k - y| ≤ |f.magnitude p - y| ∧
      (|(n : K) * 2 ^ k - y| = |f.magnitude p - y| → f.magnitude p ≠ n * 2 ^ k → |(n : K) * 2 ^ k - y| = 2 ^ k / 2) := by
  have quantum : (0 : K) < 2 ^ k := by positivity
  obtain ⟨c, multiple⟩ | ⟨positive, small⟩ := dvd_magnitude_or_lt f k p
  · obtain ⟨least, tie⟩ := near_of_multiple quantum near c
    rw [multiple, Nat.mul_comm, Nat.cast_mul, Nat.cast_pow, Nat.cast_ofNat]
    exact ⟨least, fun same other => tie same fun equal => other (by rw [equal])⟩
  · have least := (near_of_multiple quantum near (2 ^ f.fracBits)).1
    have large := large.resolve_left positive
    have small : (f.magnitude p : K) < 2 ^ f.fracBits * 2 ^ k := by exact_mod_cast small
    have farther : |((2 ^ f.fracBits : Nat) : K) * 2 ^ k - y| < |f.magnitude p - y| := by
      push_cast
      rw [abs_of_nonpos (by linarith), abs_of_nonpos (by linarith)]
      linarith
    exact ⟨least.trans farther.le, fun same => absurd (least.trans_lt farther) (by simp [same])⟩

end

/-! ## Rounding (R188 (a), (b)) -/

/-- The quantum of a rounded result is `2^k` units, with this `k`. -/
def Fmt.quantumExp (f : Fmt) (num den : Nat) : Nat := (num / den).log2 - f.fracBits

/-- The number of quanta of a rounded result. -/
def Fmt.quanta (f : Fmt) (num den : Nat) : Nat := nearestEven num (den * 2 ^ f.quantumExp num den)

/-- The pattern of a rounded result, with no largest Exponent. -/
def Fmt.rounded (f : Fmt) (num den : Nat) : Nat := f.quantumExp num den * 2 ^ f.fracBits + f.quanta num den

theorem roundMag_eq_min (f : Fmt) (num : Nat) {den : Nat} (hd : 0 < den) :
    f.roundMag num den = min f.infMag (f.rounded num den) := by
  by_cases zero : num = 0
  · have low : f.quantumExp 0 den = 0 := by simp [Fmt.quantumExp, Nat.zero_div]
    rw [zero, roundMag_zero, Fmt.rounded, Fmt.quanta, low, Nat.zero_mul, Nat.pow_zero, Nat.mul_one, nearestEven_zero hd]
    exact (Nat.min_zero _).symm
  · exact if_neg zero

theorem nearestEven_bounds (num den : Nat) : num / den ≤ nearestEven num den ∧ nearestEven num den ≤ num / den + 1 := by
  unfold nearestEven
  simp only
  split_ifs <;> omega

/-- A quotient as large as a normal value has `fracBits + 1` bits in quanta, a smaller one fewer. -/
theorem quotient_bounds (f : Fmt) (num den : Nat) :
    (f.quantumExp num den = 0 ∨ 2 ^ f.fracBits ≤ num / den / 2 ^ f.quantumExp num den) ∧
      num / den / 2 ^ f.quantumExp num den < 2 * 2 ^ f.fracBits := by
  rw [Nat.div_lt_iff_lt_mul (by positivity), Nat.le_div_iff_mul_le (by positivity)]
  have exponent : f.quantumExp num den = (num / den).log2 - f.fracBits := rfl
  generalize f.quantumExp num den = k at *
  generalize num / den = x at *
  have upper : x < 2 ^ (x.log2 + 1) := Nat.lt_log2_self
  constructor
  · obtain zero | positive := Nat.eq_zero_or_pos k
    · exact .inl zero
    · refine .inr ?_
      rw [← Nat.pow_add, show f.fracBits + k = x.log2 by omega]
      exact Nat.log2_self_le (by rintro rfl; simp at exponent; omega)
  · calc x < 2 ^ (x.log2 + 1) := upper
      _ ≤ 2 ^ (1 + f.fracBits + k) := Nat.pow_le_pow_right (by decide) (by omega)
      _ = 2 * 2 ^ f.fracBits * 2 ^ k := by ring

theorem quanta_bounds (f : Fmt) (num den : Nat) :
    (f.quantumExp num den = 0 ∨ 2 ^ f.fracBits ≤ f.quanta num den) ∧ f.quanta num den ≤ 2 * 2 ^ f.fracBits := by
  obtain ⟨lower, upper⟩ := quotient_bounds f num den
  rw [Nat.div_div_eq_div_mul] at lower upper
  obtain ⟨down, up⟩ := nearestEven_bounds num (den * 2 ^ f.quantumExp num den)
  exact ⟨lower.imp_right fun large => large.trans down, up.trans upper⟩

theorem magnitude_rounded (f : Fmt) (num den : Nat) :
    f.magnitude (f.rounded num den) = f.quanta num den * 2 ^ f.quantumExp num den := by
  obtain ⟨lower, upper⟩ := quanta_bounds f num den
  exact magnitude_quanta f lower upper

section
variable (K : Type) [Field K] [LinearOrder K] [IsStrictOrderedRing K]

/-- The number of quanta is a nearest one, the even one on a tie. -/
theorem quanta_near (f : Fmt) (num : Nat) {den : Nat} (hd : 0 < den) :
    |(f.quanta num den : K) * 2 ^ f.quantumExp num den - num / den| ≤ 2 ^ f.quantumExp num den / 2 ∧
      (|(f.quanta num den : K) * 2 ^ f.quantumExp num den - num / den| = 2 ^ f.quantumExp num den / 2 →
        f.quanta num den % 2 = 0) := by
  unfold Fmt.quanta
  generalize f.quantumExp num den = k
  obtain ⟨near, tie⟩ := nearestEven_near K num (show 0 < den * 2 ^ k by positivity)
  generalize nearestEven num (den * 2 ^ k) = n at *
  have quantum : (0 : K) < 2 ^ k := by positivity
  have scaled : |(n : K) * 2 ^ k - num / den| = |(num : K) / (den * 2 ^ k : Nat) - n| * 2 ^ k := by
    rw [abs_sub_comm, ← abs_of_pos quantum, ← abs_mul, abs_of_pos quantum, sub_mul, Nat.cast_mul, Nat.cast_pow,
      Nat.cast_ofNat, ← div_div, div_mul_cancel₀ _ quantum.ne']
  rw [scaled]
  constructor
  · nlinarith
  · intro half
    exact tie (mul_right_cancel₀ quantum.ne' (by linarith))

/-- A quotient is as large as the Exponent of its quantum asks. -/
theorem quotient_large (f : Fmt) (num : Nat) {den : Nat} (hd : 0 < den) :
    f.quantumExp num den = 0 ∨ (2 : K) ^ f.fracBits * 2 ^ f.quantumExp num den ≤ num / den := by
  refine (quotient_bounds f num den).1.imp_right fun large => ?_
  rw [Nat.le_div_iff_mul_le (by positivity), Nat.le_div_iff_mul_le hd] at large
  rw [le_div_iff₀ (Nat.cast_pos.mpr hd)]
  exact_mod_cast large

/-- With no largest Exponent, rounding picks a nearest value, the even pattern on a tie. -/
theorem rounded_nearest (f : Fmt) (num : Nat) {den : Nat} (hd : 0 < den) (p : Nat) :
    |(f.magnitude (f.rounded num den) : K) - num / den| ≤ |(f.magnitude p : K) - num / den| ∧
      (|(f.magnitude (f.rounded num den) : K) - num / den| = |(f.magnitude p : K) - num / den| →
        f.magnitude (f.rounded num den) ≠ f.magnitude p → f.rounded num den % 2 = 0) := by
  have units := magnitude_rounded f num den
  obtain ⟨near, even⟩ := quanta_near K f num hd
  obtain ⟨least, tie⟩ := near_of_quanta f (quotient_large K f num hd) near p
  have parity : f.rounded num den % 2 = f.quanta num den % 2 := by
    have evenFraction : 2 ^ f.fracBits % 2 = 0 := by cases f <;> rfl
    rw [Fmt.rounded, Nat.add_mod, Nat.mul_mod, evenFraction]
    simp
  rw [units, Nat.cast_mul, Nat.cast_pow, Nat.cast_ofNat]
  exact ⟨least, fun same other => parity.trans (even (tie same other.symm))⟩

end

/-! ## Overflow -/

/-- The value the pattern of infinity would have, in halves of the largest quantum. -/
theorem magnitude_infMag (f : Fmt) : f.magnitude f.infMag = 4 * 2 ^ f.fracBits * 2 ^ (f.expMax - 3) := by
  have split : f.infMag = (f.expMax - 1) * 2 ^ f.fracBits + 2 ^ f.fracBits := by cases f <;> rfl
  have exponent : f.expMax - 1 = f.expMax - 3 + 2 := by cases f <;> rfl
  rw [split, magnitude_quanta f (.inr le_rfl) (by omega), exponent, Nat.pow_add]
  ring

/-- The largest finite value, likewise. -/
theorem magnitude_largest (f : Fmt) : f.magnitude (f.infMag - 1) = (4 * 2 ^ f.fracBits - 2) * 2 ^ (f.expMax - 3) := by
  have split : f.infMag - 1 = (f.expMax - 2) * 2 ^ f.fracBits + (2 * 2 ^ f.fracBits - 1) := by cases f <;> rfl
  have exponent : f.expMax - 2 = f.expMax - 3 + 1 := by cases f <;> rfl
  have positive : 0 < 2 ^ f.fracBits := by positivity
  rw [split, magnitude_quanta f (.inr (by omega)) (by omega), exponent, Nat.pow_succ', ← Nat.mul_assoc,
    show (2 * 2 ^ f.fracBits - 1) * 2 = 4 * 2 ^ f.fracBits - 2 by omega]

/-- The midpoint between the largest finite value and the value the next pattern would have. -/
def Fmt.overflowPoint (f : Fmt) : ℚ := (2 ^ (f.fracBits + 2) - 1) * 2 ^ (f.expMax - 3)

theorem overflowPoint_midpoint (f : Fmt) :
    (f.magnitude (f.infMag - 1) : ℚ) < f.overflowPoint ∧ f.overflowPoint < f.magnitude f.infMag ∧
      (f.magnitude (f.infMag - 1) : ℚ) + f.magnitude f.infMag = 2 * f.overflowPoint := by
  have unit : (0 : ℚ) < 2 ^ (f.expMax - 3) := by positivity
  have positive : 2 ≤ 4 * 2 ^ f.fracBits := by have : 0 < 2 ^ f.fracBits := by positivity
                                               omega
  rw [magnitude_largest, magnitude_infMag, Fmt.overflowPoint, pow_add]
  push_cast [Nat.cast_sub positive]
  refine ⟨?_, ?_, ?_⟩
  · exact mul_lt_mul_of_pos_right (by linarith) unit
  · exact mul_lt_mul_of_pos_right (by linarith) unit
  · ring

/-- Rounding reaches infinity exactly from that midpoint on: there the tie goes to the even pattern, which is infinity's. -/
theorem infMag_le_rounded_iff (f : Fmt) (num : Nat) {den : Nat} (hd : 0 < den) :
    f.infMag ≤ f.rounded num den ↔ f.overflowPoint ≤ num / den := by
  obtain ⟨below, above, middle⟩ := overflowPoint_midpoint f
  have order := magnitude_strictMono f
  constructor
  · intro reached
    have value : (f.magnitude f.infMag : ℚ) ≤ f.magnitude (f.rounded num den) := by exact_mod_cast order.monotone reached
    have nearer := (rounded_nearest ℚ f num hd (f.infMag - 1)).1
    by_contra! short
    rw [abs_of_pos (by linarith)] at nearer
    obtain ⟨distance, -⟩ | ⟨distance, -⟩ := abs_cases ((f.magnitude (f.infMag - 1) : ℚ) - num / den)
    · linarith
    · linarith
  · intro far
    by_contra! finite
    have value : (f.magnitude (f.rounded num den) : ℚ) ≤ f.magnitude (f.infMag - 1) := by
      exact_mod_cast order.monotone (Nat.le_sub_one_of_lt finite)
    obtain ⟨nearer, tie⟩ := rounded_nearest ℚ f num hd f.infMag
    rw [abs_of_neg (a := (f.magnitude (f.rounded num den) : ℚ) - num / den) (by linarith)] at nearer tie
    obtain ⟨distance, -⟩ | ⟨distance, -⟩ := abs_cases ((f.magnitude f.infMag : ℚ) - num / den)
    · have largest : (f.magnitude (f.rounded num den) : ℚ) = f.magnitude (f.infMag - 1) := by linarith
      have pattern : f.rounded num den = f.infMag - 1 := order.injective (by exact_mod_cast largest)
      have odd : (f.infMag - 1) % 2 = 1 := by cases f <;> rfl
      have even := tie (by linarith) (order finite).ne
      omega
    · linarith

/-- Settles O45: below the midpoint the largest Exponent plays no part, and the finite patterns are the values below it. -/
theorem roundsToNearestEven : Obligations.RoundsToNearestEven := by
  intro f num den hd q p
  have overflow := infMag_le_rounded_iff f num hd
  have capped : p = min f.infMag (f.rounded num den) := roundMag_eq_min f num hd
  refine ⟨?_, fun finite => ?_⟩
  · rw [capped, min_eq_left_iff]
    exact overflow
  · have uncapped : p = f.rounded num den := capped.trans (min_eq_right (by
      by_contra! above
      exact finite (capped.trans (min_eq_left above.le))))
    have below : p < f.infMag := lt_of_le_of_ne (capped ▸ min_le_left _ _) finite
    refine ⟨below, f.magnitude p, by simpa using value_of_lt f false below, fun p' m' h => ?_⟩
    obtain ⟨r, -, rfl⟩ := exists_magnitude h
    rw [uncapped]
    exact rounded_nearest ℚ f num hd r

end Sys2Proof.Machine
end

section
/-! PROOFS. The conversions between the formats (`Obligations.FpBetweenFormats`, O41): a single is a value of the double format,
and rounding keeps a value that the format has. -/

namespace Sys2Proof.Machine

/-- A number of no more bits than the format keeps, shifted, is one of its values. -/
theorem exists_magnitude_eq (f : Fmt) (t : Nat) {c : Nat} (hc : c < 2 * 2 ^ f.fracBits) : ∃ p, f.magnitude p = c * 2 ^ t := by
  induction t generalizing c with
  | zero => exact ⟨0 * 2 ^ f.fracBits + c, magnitude_quanta f (.inl rfl) hc.le⟩
  | succ t ih =>
    obtain small | large := Nat.lt_or_ge c (2 ^ f.fracBits)
    · obtain ⟨p, hp⟩ := ih (c := 2 * c) (by omega)
      exact ⟨p, by rw [hp, Nat.pow_succ]; ring⟩
    · exact ⟨_, magnitude_quanta f (.inr large) hc.le⟩

/-- Rounding keeps a value of the format. -/
theorem roundMag_magnitude {f : Fmt} {p : Nat} (h : p < f.infMag) : f.roundMag (f.magnitude p) 1 = p := by
  have nearest := (rounded_nearest ℚ f (f.magnitude p) Nat.one_pos p).1
  rw [Nat.cast_one, div_one, sub_self, abs_zero, abs_nonpos_iff, sub_eq_zero, Nat.cast_inj] at nearest
  rw [roundMag_eq_min f _ Nat.one_pos, (magnitude_strictMono f).injective nearest]
  exact min_eq_right h.le

theorem magnitude_infMag_eq_pow (f : Fmt) : f.magnitude f.infMag = 2 ^ (f.fracBits + (f.expMax - 1)) := by
  have exponent : f.fracBits + (f.expMax - 1) = 2 + f.fracBits + (f.expMax - 3) := by cases f <;> rfl
  rw [magnitude_infMag, exponent, Nat.pow_add, Nat.pow_add]

/-- A unit of the single format is `2^unitGap` units of the double format. -/
def unitGap : Nat := 1074 - 149

theorem unitExp_double : Fmt.double.unitExp = Fmt.single.unitExp + unitGap := rfl

theorem mul_two_pow_lt {m a b c : Nat} (hm : m < 2 ^ a) (h : a + c ≤ b) : m * 2 ^ c < 2 ^ b :=
  calc m * 2 ^ c < 2 ^ a * 2 ^ c := Nat.mul_lt_mul_of_pos_right hm (Nat.two_pow_pos c)
    _ = 2 ^ (a + c) := (Nat.pow_add 2 a c).symm
    _ ≤ 2 ^ b := Nat.pow_le_pow_right (by decide) h

theorem signed_mul (neg : Bool) (m c : Nat) : signed neg (m * c) = signed neg m * c := by
  cases neg <;> simp [signed]

/-- In units of a double, every finite single is a finite double. -/
theorem exists_double_magnitude {p : Nat} (h : p < Fmt.single.infMag) :
    ∃ r, r < Fmt.double.infMag ∧ Fmt.double.magnitude r = Fmt.single.magnitude p * 2 ^ unitGap := by
  obtain ⟨k, n, rfl, normal, bits⟩ := exists_quanta .single p
  have wide : n < 2 * 2 ^ Fmt.double.fracBits := bits.trans (by decide)
  obtain ⟨r, hr⟩ := exists_magnitude_eq .double (k + unitGap) wide
  have value : Fmt.double.magnitude r = Fmt.single.magnitude (k * 2 ^ Fmt.single.fracBits + n) * 2 ^ unitGap := by
    rw [hr, magnitude_quanta .single normal bits.le, Nat.pow_add, Nat.mul_assoc]
  refine ⟨r, (magnitude_strictMono .double).lt_iff_lt.mp ?_, value⟩
  have small := magnitude_strictMono .single h
  rw [magnitude_infMag_eq_pow] at small
  rw [value, magnitude_infMag_eq_pow]
  exact mul_two_pow_lt small (by simp [Fmt.fracBits, Fmt.expMax, unitGap])

/-- The same value in units of a double. -/
def FpVal.widen : FpVal → FpVal
  | .nan => .nan
  | .inf neg => .inf neg
  | .fin neg mag => .fin neg (mag * 2 ^ unitGap)

theorem rat_widen (v : FpVal) : v.widen.rat .double = v.rat .single := by
  cases v with
  | fin neg mag =>
    refine congrArg some ?_
    rw [signed_mul, unitExp_double, pow_add, Int.cast_mul, Int.cast_natCast, Nat.cast_pow, Nat.cast_ofNat]
    exact mul_div_mul_right _ _ (by positivity)
  | nan => rfl
  | inf neg => rfl

/-- A double register that holds a pattern. -/
theorem double_of_pattern {neg : Bool} {p : Nat} {w : Double} (hp : p < Fmt.double.signWeight)
    (h : DoubleIs (Fmt.double.pattern neg p) w) :
    double w = Fmt.double.value ((if neg then Fmt.double.signWeight else 0) + p) := by
  have width : 2 ^ 64 = Fmt.double.signWeight + Fmt.double.signWeight := rfl
  rw [double, h, BitVec.toNat_ofNat, Nat.mod_eq_of_lt]
  cases neg with
  | false => exact (Nat.zero_add p).trans_lt (by omega)
  | true => exact width ▸ Nat.add_lt_add_left hp _

theorem singleToDouble_fin (neg : Bool) (mag : Nat) : singleToDouble (.fin neg mag) =
    Fmt.double.pattern neg (Fmt.double.roundMag (mag * 2 ^ unitGap) 1) := by
  by_cases zero : mag = 0
  · rw [zero, Nat.zero_mul, roundMag_zero]
    rfl
  · rw [singleToDouble, if_neg zero, unitExp_double, Nat.add_sub_cancel_left]
    rfl

/-- `cvt.d.s` writes the single's value. -/
theorem double_of_singleToDouble {x : Word} {w : Double} (h : DoubleIs (singleToDouble (single x)) w) :
    double w = (single x).widen := by
  cases hv : single x with
  | nan =>
    rw [hv] at h
    rw [double, Fmt.value, show Fmt.double.classOf w.toNat = .nan from h]
    rfl
  | inf neg =>
    rw [hv] at h
    exact (double_of_pattern (infMag_lt_signWeight .double) h).trans (value_infMag .double neg)
  | fin neg mag =>
    obtain ⟨p, finite, rfl⟩ := exists_magnitude hv
    obtain ⟨r, below, value⟩ := exists_double_magnitude finite
    rw [hv, singleToDouble_fin, ← value, roundMag_magnitude below] at h
    rw [double_of_pattern (below.trans (infMag_lt_signWeight .double)) h, value_of_lt .double neg below, value]
    rfl

theorem doubleToSingle_fin (neg : Bool) (mag : Nat) :
    doubleToSingle (.fin neg mag) = Fmt.single.round neg mag (2 ^ (1074 - 149)) := by
  rw [doubleToSingle, unitExp_double, Nat.add_sub_cancel_left, unitGap]

/-- Settles O41: `cvt.s.d` delivers `doubleToSingle`; `cvt.d.s` keeps the value. -/
theorem fpBetweenFormats : Obligations.FpBetweenFormats := by
  refine ⟨fun fs fd s => ⟨fun even => ?narrow, fun odd => ?oddSource, fun even => ?widen, fun odd => ?oddTarget⟩, rfl,
    fun neg mag => ⟨rfl, doubleToSingle_fin neg mag⟩⟩
  case narrow => exact completes_of_putSingle (withDoubles_even (evenOnly_even even) s _)
  case oddSource => exact withDoubles_odd (List.mem_singleton_self fs) odd s _
  case oddTarget => exact withDoubles_odd (List.mem_singleton_self fd) odd s _
  case widen =>
    refine Completes.weaken (completes_of_putDouble (withDoubles_even (evenOnly_even even) s _)) fun t h => ?_
    have kept := double_of_singleToDouble h
    refine ⟨?_, fun neg mag hv => ?_, fun hv => ?_, fun neg hv => ?_⟩
    · rw [kept, rat_widen]
    · rw [kept, hv, FpVal.widen, unitGap]
    · rw [kept, hv]
      rfl
    · rw [kept, hv]
      rfl

end Sys2Proof.Machine
end

section
/-! PROOFS. The square root (`Obligations.SquareRootIsNearest`, O47). `Fmt.sqrtMag` rounds not the real root but a number next to
it; both lie between the same two multiples of `2^j` units, where `j` is below the last bit the format keeps, so both have the
same nearest value. -/

namespace Sys2Proof.Machine

/-! ## The integer square root -/

theorem isqrtFrom_spec {k x r : Nat} (low : r * r ≤ x) (high : x < (r + 2 ^ k) * (r + 2 ^ k)) :
    isqrtFrom k x r * isqrtFrom k x r ≤ x ∧ x < (isqrtFrom k x r + 1) * (isqrtFrom k x r + 1) := by
  induction k generalizing r with
  | zero => exact ⟨low, high⟩
  | succ k ih =>
    rw [isqrtFrom]
    split_ifs with kept
    · exact ih kept (by rwa [Nat.add_assoc, ← Nat.two_mul, ← Nat.pow_succ'])
    · exact ih low (Nat.lt_of_not_le kept)

theorem isqrt_spec (x : Nat) : isqrt x * isqrt x ≤ x ∧ x < (isqrt x + 1) * (isqrt x + 1) := by
  refine isqrtFrom_spec (Nat.zero_le x) ?_
  calc x < 2 ^ (x.log2 + 1) := Nat.lt_log2_self
    _ ≤ 2 ^ (x.log2 / 2 + 1 + (x.log2 / 2 + 1)) := Nat.pow_le_pow_right (by decide) (by omega)
    _ = (0 + 2 ^ (x.log2 / 2 + 1)) * (0 + 2 ^ (x.log2 / 2 + 1)) := by rw [Nat.pow_add, Nat.zero_add]

/-! ## The root that is rounded -/

/-- The square of the root, in square units: the root of `mag` units is the root of `mag * 2^unitExp`, in units. -/
def Fmt.square (f : Fmt) (mag : Nat) : Nat := mag * 2 ^ f.unitExp

/-- The bits of the root left out. -/
def Fmt.rootExp (f : Fmt) (mag : Nat) : Nat := (f.square mag).log2 / 2 - (f.fracBits + 2)

/-- The root in units of `2^rootExp`, rounded down. -/
def Fmt.root (f : Fmt) (mag : Nat) : Nat := isqrt (f.square mag / 4 ^ f.rootExp mag)

/-- Twice the number that is rounded. -/
def Fmt.rootTwice (f : Fmt) (mag : Nat) : Nat :=
  (2 * f.root mag + (if f.root mag * f.root mag * 4 ^ f.rootExp mag = f.square mag then 0 else 1)) * 2 ^ f.rootExp mag

theorem sqrtMag_eq (f : Fmt) (mag : Nat) : f.sqrtMag mag = f.roundMag (f.rootTwice mag) 2 := rfl

theorem root_bounds (f : Fmt) (mag : Nat) :
    f.root mag * f.root mag * 4 ^ f.rootExp mag ≤ f.square mag ∧
      f.square mag < (f.root mag + 1) * (f.root mag + 1) * 4 ^ f.rootExp mag := by
  obtain ⟨low, high⟩ := isqrt_spec (f.square mag / 4 ^ f.rootExp mag)
  exact ⟨(Nat.le_div_iff_mul_le (by positivity)).mp low, (Nat.div_lt_iff_lt_mul (by positivity)).mp high⟩

/-- The root has at least two bits more than the format keeps. -/
theorem two_pow_le_root (f : Fmt) {mag : Nat} (h : 0 < mag) : 2 ^ (f.fracBits + 2) ≤ f.root mag := by
  have nonzero : f.square mag ≠ 0 := (Nat.mul_pos h (Nat.two_pow_pos _)).ne'
  have long : f.unitExp ≤ (f.square mag).log2 :=
    (Nat.le_log2 nonzero).mpr (Nat.le_mul_of_pos_left _ h)
  have enough : f.fracBits + 2 ≤ f.unitExp / 2 := by cases f <;> decide
  have bits : 2 * (f.fracBits + 2) + 2 * f.rootExp mag ≤ (f.square mag).log2 := by
    unfold Fmt.rootExp
    omega
  have large : 2 ^ (f.fracBits + 2) * 2 ^ (f.fracBits + 2) * 4 ^ f.rootExp mag ≤ f.square mag :=
    calc 2 ^ (f.fracBits + 2) * 2 ^ (f.fracBits + 2) * 4 ^ f.rootExp mag
        = 2 ^ (2 * (f.fracBits + 2) + 2 * f.rootExp mag) := by
          rw [← Nat.pow_add, show 4 = 2 ^ 2 from rfl, ← Nat.pow_mul, ← Nat.pow_add, Nat.two_mul (f.fracBits + 2)]
      _ ≤ 2 ^ (f.square mag).log2 := Nat.pow_le_pow_right (by decide) bits
      _ ≤ f.square mag := Nat.log2_self_le nonzero
  have squares := large.trans_lt (root_bounds f mag).2
  exact Nat.le_of_lt_succ (Nat.mul_self_lt_mul_self_iff.mp (Nat.lt_of_mul_lt_mul_right squares))

/-- The quantum of the rounded root is at least twice `2^rootExp`. -/
theorem rootExp_lt_quantumExp (f : Fmt) {mag : Nat} (h : 0 < mag) : f.rootExp mag < f.quantumExp (f.rootTwice mag) 2 := by
  have large : 2 ^ (f.fracBits + 2 + f.rootExp mag) ≤ f.rootTwice mag / 2 := by
    rw [Nat.le_div_iff_mul_le (by decide), Nat.pow_add, Nat.mul_right_comm]
    exact Nat.mul_le_mul_right _ ((Nat.mul_comm _ 2).trans_le
      ((Nat.mul_le_mul_left 2 (two_pow_le_root f h)).trans (Nat.le_add_right _ _)))
  have nonzero : f.rootTwice mag / 2 ≠ 0 := (large.trans_lt' (Nat.two_pow_pos _)).ne'
  have long := (Nat.le_log2 nonzero).mpr large
  unfold Fmt.quantumExp
  omega

/-! ## The real root -/

/-- The real root in units. -/
noncomputable def Fmt.realRoot (f : Fmt) (mag : Nat) : ℝ := Real.sqrt ((mag : ℝ) * 2 ^ f.unitExp)

theorem realRoot_sq (f : Fmt) (mag : Nat) : f.realRoot mag ^ 2 = f.square mag := by
  rw [Fmt.realRoot, Real.sq_sqrt (by positivity), Fmt.square]
  push_cast
  rfl

theorem realRoot_nonneg (f : Fmt) (mag : Nat) : 0 ≤ f.realRoot mag := Real.sqrt_nonneg _

theorem four_pow_eq (j : Nat) : (4 : ℝ) ^ j = 2 ^ j * 2 ^ j := by rw [← mul_pow]; norm_num

/-- The root rounded down, and the next, around the real root. -/
theorem root_around (f : Fmt) (mag : Nat) :
    (f.root mag : ℝ) * 2 ^ f.rootExp mag ≤ f.realRoot mag ∧
      f.realRoot mag < (f.root mag + 1) * 2 ^ f.rootExp mag := by
  obtain ⟨low, high⟩ := root_bounds f mag
  have low : (f.root mag * f.root mag * 4 ^ f.rootExp mag : ℝ) ≤ f.square mag := by exact_mod_cast low
  have high : (f.square mag : ℝ) < (f.root mag + 1) * (f.root mag + 1) * 4 ^ f.rootExp mag := by exact_mod_cast high
  rw [← realRoot_sq, four_pow_eq] at low high
  constructor
  · exact le_of_sq_le_sq (by linarith) (realRoot_nonneg f mag)
  · exact lt_of_pow_lt_pow_left₀ 2 (by positivity) (by linarith)

/-- The number that is rounded is the real root, or lies between two multiples of `2^rootExp` where the real root lies too. -/
theorem rootTwice_cases (f : Fmt) (mag : Nat) :
    (f.rootTwice mag : ℝ) / (2 : Nat) = f.realRoot mag ∨
      (f.rootTwice mag : ℝ) / (2 : Nat) = (2 * f.root mag + 1) * 2 ^ f.rootExp mag / 2 := by
  unfold Fmt.rootTwice
  split_ifs with exact_root
  · left
    have root : (f.root mag : ℝ) * 2 ^ f.rootExp mag = f.realRoot mag := by
      have square : (f.root mag * f.root mag * 4 ^ f.rootExp mag : ℝ) = f.square mag := by exact_mod_cast exact_root
      rw [← realRoot_sq, four_pow_eq] at square
      exact (sq_eq_sq₀ (by positivity) (realRoot_nonneg f mag)).mp (by linarith)
    rw [← root]
    push_cast
    ring
  · right
    push_cast
    ring

/-- The real root and the number that is rounded lie on the same side of every multiple of `2^rootExp`. -/
theorem same_side (f : Fmt) (mag c : Nat) :
    ((c : ℝ) * 2 ^ f.rootExp mag ≤ (f.rootTwice mag : ℝ) / (2 : Nat) → (c : ℝ) * 2 ^ f.rootExp mag ≤ f.realRoot mag) ∧
      ((f.rootTwice mag : ℝ) / (2 : Nat) ≤ c * 2 ^ f.rootExp mag → f.realRoot mag ≤ c * 2 ^ f.rootExp mag) := by
  obtain same | between := rootTwice_cases f mag
  · rw [same]
    exact ⟨id, id⟩
  · obtain ⟨low, high⟩ := root_around f mag
    have unit : (0 : ℝ) < 2 ^ f.rootExp mag := by positivity
    rw [between, mul_div_right_comm]
    constructor
    · intro below
      have : (2 * c : ℝ) ≤ 2 * f.root mag + 1 := by linarith [le_of_mul_le_mul_right below unit]
      have : c ≤ f.root mag := by
        have : 2 * c ≤ 2 * f.root mag + 1 := by exact_mod_cast this
        omega
      exact (mul_le_mul_of_nonneg_right (by exact_mod_cast this) unit.le).trans low
    · intro above
      have : (2 * f.root mag + 1 : ℝ) ≤ 2 * c := by linarith [le_of_mul_le_mul_right above unit]
      have : f.root mag + 1 ≤ c := by
        have : 2 * f.root mag + 1 ≤ 2 * c := by exact_mod_cast this
        omega
      exact high.le.trans (mul_le_mul_of_nonneg_right (by exact_mod_cast this) unit.le)

/-- The rounded number of quanta is nearest to the real root too. -/
theorem quanta_near_realRoot (f : Fmt) {mag : Nat} (h : 0 < mag) :
    2 ^ f.fracBits * 2 ^ f.quantumExp (f.rootTwice mag) 2 ≤ f.realRoot mag ∧
      |(f.quanta (f.rootTwice mag) 2 : ℝ) * 2 ^ f.quantumExp (f.rootTwice mag) 2 - f.realRoot mag| ≤
        2 ^ f.quantumExp (f.rootTwice mag) 2 / 2 := by
  have large := quotient_large ℝ f (f.rootTwice mag) (den := 2) (by decide)
  have near := (quanta_near ℝ f (f.rootTwice mag) (den := 2) (by decide)).1
  have quanta := (quanta_bounds f (f.rootTwice mag) 2).1
  obtain ⟨d, exponent⟩ := Nat.exists_eq_add_of_lt (rootExp_lt_quantumExp f h)
  rw [exponent] at large near quanta ⊢
  have side := same_side f mag
  have quantum : (2 : ℝ) ^ (f.rootExp mag + d + 1) = 2 * 2 ^ d * 2 ^ f.rootExp mag := by ring
  have positive : 0 < 2 ^ f.fracBits := Nat.two_pow_pos _
  have large := large.resolve_left (by omega)
  have quanta := quanta.resolve_left (by omega)
  generalize f.quanta (f.rootTwice mag) 2 = n at *
  obtain ⟨n, rfl⟩ := Nat.exists_eq_add_of_le' (positive.trans_le quanta)
  rw [quantum] at large near ⊢
  obtain ⟨lower, upper⟩ := abs_le.mp near
  have first := (side (2 ^ f.fracBits * (2 * 2 ^ d))).1
  have above := (side ((2 * n + 1) * 2 ^ d)).1
  have below := (side ((2 * n + 3) * 2 ^ d)).2
  push_cast at first above below lower upper ⊢
  refine ⟨by linarith [first (by linarith)], abs_le.mpr ⟨?_, ?_⟩⟩
  · linarith [below (by linarith)]
  · linarith [above (by linarith)]

theorem rounded_near_realRoot (f : Fmt) {mag : Nat} (h : 0 < mag) (p : Nat) :
    |(f.magnitude (f.rounded (f.rootTwice mag) 2) : ℝ) - f.realRoot mag| ≤ |(f.magnitude p : ℝ) - f.realRoot mag| := by
  obtain ⟨large, near⟩ := quanta_near_realRoot f h
  rw [magnitude_rounded, Nat.cast_mul, Nat.cast_pow, Nat.cast_ofNat]
  exact (near_of_quanta f (.inr large) near p).1

/-- A root is far below infinity: it is at most twice the real root, since 0 is a value. -/
theorem rounded_root_lt_infMag (f : Fmt) {p : Nat} (finite : p < f.infMag) (h : 0 < f.magnitude p) :
    f.rounded (f.rootTwice (f.magnitude p)) 2 < f.infMag := by
  have near := rounded_near_realRoot f h 0
  have square := realRoot_sq f (f.magnitude p)
  have nonneg := realRoot_nonneg f (f.magnitude p)
  have zero : f.magnitude 0 = 0 := by rw [Fmt.magnitude, Nat.zero_div, units_zero, Nat.zero_mod]
  refine (magnitude_strictMono f).lt_iff_lt.mp ?_
  have small := magnitude_strictMono f finite
  have unit : 4 * 2 ^ f.unitExp ≤ f.magnitude f.infMag := by
    rw [magnitude_infMag_eq_pow, show 4 = 2 ^ 2 from rfl, ← Nat.pow_add]
    exact Nat.pow_le_pow_right (by decide) (by cases f <;> decide)
  generalize f.magnitude (f.rounded (f.rootTwice (f.magnitude p)) 2) = v at *
  rw [zero, Nat.cast_zero, zero_sub, abs_neg, abs_of_nonneg nonneg] at near
  have twice : (v : ℝ) ≤ 2 * f.realRoot (f.magnitude p) := by linarith [(abs_le.mp near).2]
  have squares : (v : ℝ) ^ 2 ≤ 4 * f.square (f.magnitude p) := by
    rw [← square]
    nlinarith
  have squares : v ^ 2 ≤ 4 * f.square (f.magnitude p) := by exact_mod_cast squares
  refine lt_of_pow_lt_pow_left₀ 2 (Nat.zero_le _) (squares.trans_lt ?_)
  calc 4 * f.square (f.magnitude p) = f.magnitude p * (4 * 2 ^ f.unitExp) := by rw [Fmt.square]; ring
    _ ≤ f.magnitude p * f.magnitude f.infMag := Nat.mul_le_mul_left _ unit
    _ < f.magnitude f.infMag ^ 2 := by
      rw [Nat.pow_two]
      exact Nat.mul_lt_mul_of_pos_right small (Nat.zero_lt_of_lt small)

/-- Settles O47: the rounded root is nearest to the real root among all magnitudes, so among the finite patterns' values. -/
theorem squareRootIsNearest : Obligations.SquareRootIsNearest := by
  refine fun f => ⟨fun neg => rfl, rfl, rfl, rfl, fun m hm => ?_, fun bits m hv hm => ?_⟩
  · exact (if_neg hm.ne').trans (if_pos rfl)
  · obtain ⟨p, finite, rfl⟩ := exists_magnitude hv
    have below := rounded_root_lt_infMag f finite hm
    have pattern : f.sqrtMag (f.magnitude p) = f.rounded (f.rootTwice (f.magnitude p)) 2 := by
      rw [sqrtMag_eq, roundMag_eq_min f _ (by decide)]
      exact min_eq_right below.le
    refine ⟨f.magnitude (f.rounded (f.rootTwice (f.magnitude p)) 2), ?_, ?_, fun p' r' h' => ?_⟩
    · exact (if_neg hm.ne').trans (if_neg Bool.false_ne_true)
    · rw [pattern]
      simpa using value_of_lt f false below
    · obtain ⟨q, -, rfl⟩ := exists_magnitude h'
      exact rounded_near_realRoot f hm q

end Sys2Proof.Machine
end
